-- ==== Sys2Proof/Word.lean ====
section
/-!
DEFINITION. The word types of the machine: a register moves as one 32-bit word (R39); a byte is 8 bits.
-/
namespace Sys2Proof

/-- One register word (R39). -/
abbrev Word := BitVec 32

/-- One byte of a record, frame, block or table entry. -/
abbrev Byte := BitVec 8

/-- A tenant tag (R11): T0 the Operator, T1 to T62 tenants, T63 Service. -/
abbrev Tag := BitVec 6

end Sys2Proof
end

