-- ==== Sys2Proof/Syntax.lean ====
section
/-!
DEFINITION. The commands the block takes: one constructor of `Instr` for each row of the table of operations and events,
with the operands the row's step needs. A command is one thing that reaches the module from outside (a bus access, a
frame, a measured condition) or one timed step of its own that has come due.
-/
namespace Sys2Proof

/-- The two control planes (R22). -/
inductive PlaneId where
  | a
  | b
deriving DecidableEq, Repr

/-- The other plane. -/
def PlaneId.other : PlaneId → PlaneId
  | .a => .b
  | .b => .a

/-- Plane number as records and registers carry it: 0 is A, 1 is B. -/
def PlaneId.num : PlaneId → Nat
  | .a => 0
  | .b => 1

/-- What is measured of the fundamental of L1 over the cycle that ends at a tick 0 (R69, R72, R75): the measured period
in 1/16 ns, the place of the positive-going zero crossing of the L1 fundamental in the cycle in 1/256 tick, the frequency in mHz, and the PTP time
of the tick 0 in ns. -/
structure CycleMeas where
  period : Nat
  cross : Nat
  freq : Nat
  ptp : Nat
deriving DecidableEq, Repr

/-- What a PTP message tells the servo (R81): a Sync with its measured offset and path delay in ns, or an Announce with its place in
the best-master order (lower is better). -/
inductive PtpBody where
  | sync (offset : Int) (path : Nat)
  | announce (rank : Nat)
deriving DecidableEq, Repr

/-- A timestamped PTP message of a profile and domain (R81). -/
structure PtpMsg where
  profile : Fin 4
  domain : Byte
  body : PtpBody
deriving DecidableEq, Repr

/-- OP and WORDS of a Moarno request that is not a WRITE, CMD_SUBMIT or EVT_WAIT (R66): a READ, or an OP that does not exist. -/
structure RequestHead where
  op : BitVec 8 := 1
  words : Nat
deriving DecidableEq, Repr

/-- A decision of the active plane's Weir as it crosses the sync link (R109): the path it answers, the submitted record, the
accepted slot, CMD_SEQ, the booked tick and recovery tick, and the copied entries as words. -/
structure Decision where
  scan : Option Nat
  slot : Fin 256
  seq : Nat
  launch : Nat
  recovery : Option Nat
  tag : Tag
  record : List Byte
  copy : List (List Word)
deriving DecidableEq, Repr

/-- What a launch comes from: a command slot, a standing head or loop, or a port's intent (R119, R150). -/
inductive LaunchRef where
  | slot (n : Fin 256)
  | head (i : Fin 4096)
  | loop (l : Fin 512)
  | intent (port : Fin 128)
deriving DecidableEq, Repr

/-- What a port's PHY finds (R263): no partner, link at a speed with the partner's pause bits, a partner that offers half duplex
only, or one that offers no allowed speed. -/
inductive PortLink where
  | down
  | up (g1000 partnerPause : Bool)
  | halfOnly
  | speedRefused
deriving DecidableEq, Repr

/-- A module in an SFP+ cage by its SFF-8472 compliance codes: for 10GBASE-R, for 1000BASE-X, or of a kind that is not supported (R264). -/
inductive Sfp where
  | tenG
  | oneG
  | unsupported
deriving DecidableEq, Repr

/-- A frame for a plane's management or service interface (R281, R454): an ARP request or an ICMP echo for an IPv4 address, a
segment to a TCP port, or anything else. -/
inductive MgmtKind where
  | arp (ip : BitVec 32)
  | icmp (ip : BitVec 32)
  | tcp (ip : BitVec 32) (port : BitVec 16)
  | other
deriving DecidableEq, Repr

/-- How a transmit attempt ends (R290, R294): without error, or with an error of a kind coded as in R298 (1 bit, 2 stuff,
3 form, 4 acknowledgement, 5 CRC), or by loss of arbitration. `dominant` says that a dominant bit was seen during the passive
error flag; `dataPhase` that the error was in the data phase; `exempt` that a stuff error during arbitration, a recessive
stuff bit sent and monitored dominant, is the standard's exception. -/
inductive CanResult where
  | ok
  | error (code : Fin 8) (dominant dataPhase exempt : Bool)
  | lost
deriving DecidableEq, Repr

/-- A valid frame seen on a CAN bus. -/
structure CanFrame where
  ident : BitVec 29
  ide : Bool
  fdf : Bool
  brs : Bool
  esi : Bool
  rtr : Bool
  dlc : Fin 16
  data : List Byte
deriving DecidableEq, Repr

/-- What a plane measures of itself during start-up (R321, R322, R346, R409, R433): whether its known-answer tests pass; the bit errors
corrected with helper copy 0 and with copy 1 where each succeeds; firmware slots whose boot verification fails (bit 0 A, bit 1 B);
Basins with failing columns and their number; the hold-up time in ms; the ms from the release of reset to READY. -/
structure StartMeas where
  kat : Bool
  copy0 : Option Nat
  copy1 : Option Nat
  fwBad : BitVec 2
  march : List (Fin 64 × Nat)
  holdup : Nat
  readyMs : Nat
deriving DecidableEq, Repr

/-- A master's request to a Basin in one cycle (R398, R401): its code, word, write or read, the data written, and what the check
bits of a read show (0 no error, 1 single-bit, 2 double-bit). -/
structure BasinReq where
  master : Fin 10
  word : Nat
  write : Bool
  data : BitVec 64
  ecc : Fin 3
deriving DecidableEq, Repr

/-- How a leakage check of a port ends (R414). -/
inductive LeakResult where
  | pass
  | fail
  | abandoned
deriving DecidableEq, Repr

/-- Fan and converter-cell telemetry (R412, R439): fans running and fitted, intake and hottest temperatures in °C. -/
structure Telemetry where
  run : BitVec 6
  fitted : BitVec 6
  intake : BitVec 8
  hot : BitVec 8
  cells : BitVec 4
deriving DecidableEq, Repr


/-- A command: one row of the table of operations and events. -/
inductive Instr where
  -- register pages and remote access (chapter 2)
  | registerWrite (p : PlaneId) (tag : Tag) (be : BitVec 4) (addr : BitVec 20) (data : Word)
  | rcRead (p : PlaneId) (tag : Tag) (addr : BitVec 20)
  | wideLowRead (p : PlaneId) (tag : Tag) (addr : BitVec 20)
  | wideHighWrite (p : PlaneId) (tag : Tag) (be : BitVec 4) (addr : BitVec 20) (data : Word)
  | seal (p : PlaneId) (tag : Tag) (be : BitVec 4) (page : BitVec 10) (data : Word)
  | softRst (p : PlaneId) (tag : Tag) (page : BitVec 10)
  | windowEntryWrite (p : PlaneId) (tag : Tag) (be : BitVec 4) (addr : BitVec 20) (data : Word)
  | hold (p : PlaneId) (tag : Tag)
  | holdClear (p : PlaneId) (tag : Tag)
  | discard (p : PlaneId) (tag : Tag)
  | configGroupApply
  | configGroupSync (group : Nat)
  | sysAliasUpdate
  | moarnoRead (p : PlaneId) (session : Fin 8) (head : RequestHead) (addr seq : Nat)
  | moarnoWrite (p : PlaneId) (session : Fin 8) (group : Bool) (words addr seq : Nat) (data : List Word)
  | moarnoCmdSubmit (p : PlaneId) (session : Fin 8) (words addr seq : Nat) (data : List Word)
  | moarnoEvtWait (p : PlaneId) (session : Fin 8) (words addr seq : Nat) (data : List Word)
  | evtWaitAnswer (p : PlaneId) (session : Fin 8)
  | moarnoSessionOpen (p : PlaneId) (session : Fin 8) (tag : Tag) (anchor : Fin 256) (valid : Bool)
  | moarnoSessionClose (p : PlaneId) (session : Fin 8)
  -- the mains time base (chapter 3)
  | cycleStart (m : CycleMeas)
  | halfCycleBoundary
  | lockAcquired (p : PlaneId)
  | l1Disturbed
  | l1Good
  | relockDone
  | steerDiff (period : Nat)
  | supplyLossWarning
  | mainsOk
  | ptpMessageReceive (uplink : Fin 4) (msg : PtpMsg)
  | announceReceiptTimeout
  | cycleAnnouncementSend
  | cycleAnnouncementReceive (bytes : List Byte)
  | adopt
  | adoptWaitExpiry (p : PlaneId)
  | realign (p : PlaneId) (tag : Tag)
  | realigned
  -- deterministic commands (chapter 4)
  | cmdSubmit (p : PlaneId) (tag : Tag) (be : BitVec 4) (data : Word)
  | weirDecide (p : PlaneId)
  | decisionSync (d : Decision)
  | launchSend (p : PlaneId) (src : LaunchRef)
  | lfabBlockReceive (p : PlaneId) (toField : Bool) (link : Fin 2) (bytes : List Byte)
  | lfabNakReceive (p : PlaneId) (link : Fin 2) (lseq : Nat)
  | linkDown (p : PlaneId) (link : Fin 2)
  | inject (p : PlaneId) (tag : Tag) (link : Fin 2)
  | launchRelease (p : PlaneId) (standing : Bool) (slot seq : Nat)
  | transmissionStart (path slot seq : Nat)
  | allowanceExpiry (slot : Fin 256)
  | doneClear (p : PlaneId) (tag : Tag) (k : Fin 8) (mask : Word)
  | abort (p : PlaneId) (tag : Tag) (slot : Fin 256)
  | abortReport (slot : Fin 256) (removed : Bool)
  -- ports and the power budget (chapter 6)
  | portSignatureFound (port : Fin 128) (dual : Bool)
  | detectionRetry (port : Fin 128)
  | classMeasured (port : Fin 128) (k : Fin 9) (kb : Option (Fin 6))
  | signatureRecheck (port : Fin 128) (present : Bool)
  | powerUpRegulation (port : Fin 128)
  | inrush (port : Fin 128)
  | mpsLost (port : Fin 128)
  | overload (port : Fin 128) (short : Bool)
  | faultRetry (port : Fin 128)
  | pseFault (group : Fin 16)
  | cellFault (cell : Fin 4)
  | rideThroughEnd (store : Bool)
  | shed
  | wakeLaunch
  -- metering, accounts and pulses (chapter 7)
  | meterSample (payload : List Byte)
  | meterChannelFault (p : PlaneId) (channel : BitVec 12) (faulted : Bool)
  | calibrationCheck (p : PlaneId) (channel : BitVec 12) (ppm : Int)
  | intervalClose (p : PlaneId)
  | pulseStart (n : Fin 8)
  | pulseEnd (n : Fin 8)
  -- the two planes (chapter 10)
  | digestReceive (p : PlaneId) (kind : Fin 4) (stamp : Nat) (digest : Word)
  | digestTimeout (p : PlaneId) (kind : Fin 4) (stamp : Nat)
  | selfCheckResult (activePass standbyPass : Bool)
  | join (p : PlaneId)
  | resyncCaughtUp (p : PlaneId) (digest : Word)
  | resyncFail (p : PlaneId)
  | resyncRetry (p : PlaneId)
  | syncHeartbeat (p : PlaneId)
  | syncDown
  | renewSend (p : PlaneId)
  | renew (block : List Byte)
  | claim (block : List Byte)
  | release (block : List Byte)
  | leaseExpiry (p : PlaneId)
  | guardExpiry
  | heartbeatLoss
  | overlapMax
  | leaseReport (payload : List Byte) (stamp : Nat)
  | startClaim (p : PlaneId)
  | drillArm (p : PlaneId) (tag : Tag)
  | drillCancel (p : PlaneId) (tag : Tag)
  | drill
  -- the Scan Engine (chapter 8)
  | scanLoad
  | checkDone (p : PlaneId)
  | startWarm
  | startCold
  | stop
  | scanBoundary (p : PlaneId)
  | scanComplete (p : PlaneId) (ns : Nat)
  | scanImageSubmit (p : PlaneId)
  | go (p : PlaneId) (tag : Tag) (count : Fin 128)
  | chgItemWrite (p : PlaneId) (tag : Tag) (be : BitVec 4) (k : Fin 64) (data : Word)
  -- the Loop Engine (chapter 9)
  | loopSample (p : PlaneId) (stalled : List (Fin 512))
  | loopRecordWrite (p : PlaneId) (tag : Tag) (be : BitVec 4) (data : Word)
  | loopSectionWrite (p : PlaneId) (tag : Tag) (be : BitVec 4) (data : Word)
  | swap (p : PlaneId) (tag : Tag) (reset : Bool)
  | clear (p : PlaneId) (tag : Tag)
  | rearm (p : PlaneId) (tag : Tag)
  -- the frame network (chapter 11)
  | frameReceive (port : Fin 132) (frame : List Byte) (aligned : Bool) (full : List (Fin 132))
  | portLinkChange (port : Fin 128) (link : PortLink)
  | uplinkLinkChange (u : Fin 4) (link tenG partnerPause : Bool)
  | moduleChange (u : Fin 4) (module : Option Sfp)
  | fdbAgeExpiry (mac : BitVec 48) (vid : BitVec 12)
  | pauseReceive (port : Fin 132) (quanta : BitVec 16)
  | pauseExpiry (port : Fin 132)
  | wakeFilterWrite (p : PlaneId) (tag : Tag) (k : Fin 32) (data : Word)
  | mgmtFrame (p : PlaneId) (kind : MgmtKind) (service : Bool)
  -- CAN and the field supply (chapters 12 and 19)
  | canArbitrationStart (ch : Fin 8)
  | canAttemptEnd (ch : Fin 8) (result : CanResult)
  | canFrameReceive (ch : Fin 8) (msg : CanFrame)
  | rxRelease (p : PlaneId) (tag : Tag) (ch : Fin 8) (k : Fin 4) (mask : Word)
  | recover (p : PlaneId) (tag : Tag) (ch : Fin 8)
  | canRecovered (ch : Fin 8)
  | fieldSupplyOvercurrent (c : Fin 4)
  | fieldSupplyRetry (c : Fin 4)
  | fieldSupplyTotalOverload (ma : List Nat)
  -- keys, engines and images (chapter 14)
  | generate (p : PlaneId) (tag : Tag)
  | derive (p : PlaneId) (tag : Tag)
  | import_ (p : PlaneId) (tag : Tag)
  | keyVerify (p : PlaneId) (tag : Tag)
  | commit (p : PlaneId) (tag : Tag)
  | keyDiscard (p : PlaneId) (tag : Tag)
  | invalidate (p : PlaneId) (tag : Tag)
  | keyOpDone (p : PlaneId)
  | keyEraseDone (p : PlaneId)
  | zeroAll (p : PlaneId) (tag : Tag)
  | reenrol (p : PlaneId) (tag : Tag)
  | entropyFail (p : PlaneId)
  | wellspringHealthCheck (p : PlaneId) (ok : Bool)
  | hash (p : PlaneId) (tag : Tag)
  | hmac (p : PlaneId) (tag : Tag) (slot : Fin 256)
  | sign (p : PlaneId) (tag : Tag) (slot : Fin 256) (prehashed : Bool)
  | verify (p : PlaneId) (tag : Tag) (slot : Fin 256) (prehashed : Bool)
  | encrypt (p : PlaneId) (tag : Tag) (slot : Fin 256)
  | decrypt (p : PlaneId) (tag : Tag) (slot : Fin 256)
  | random (p : PlaneId) (tag : Tag)
  | quote (p : PlaneId) (tag : Tag)
  | statement (p : PlaneId) (tag : Tag) (slot : Fin 256)
  | devcert (p : PlaneId) (tag : Tag)
  | cryptoOpDone (p : PlaneId)
  | imgStart (p : PlaneId) (tag : Tag) (program : Bool)
  | imgData (p : PlaneId) (tag : Tag) (data : Word)
  | finish (p : PlaneId) (tag : Tag) (program : Bool)
  | imgAbort (p : PlaneId) (tag : Tag) (program : Bool)
  | imgVerifyDone (p : PlaneId)
  | imgTimeout (p : PlaneId)
  | peer (p : PlaneId)
  | activate (p : PlaneId) (tag : Tag)
  | confirm (p : PlaneId) (tag : Tag)
  | advance (p : PlaneId) (tag : Tag)
  | trialFail (p : PlaneId)
  | entropyRecovered (p : PlaneId)
  -- Tarn and the event recorder (chapter 15)
  | tarnStore (p : PlaneId) (tag : Tag)
  | storeStart (p : PlaneId)
  | stored (p : PlaneId)
  | unlock (p : PlaneId) (tag : Tag) (region : Fin 8) (write : Bool)
  | set_ (p : PlaneId) (tag : Tag) (region : Fin 8) (write : Bool)
  | relock (p : PlaneId) (tag : Tag) (region : Fin 8) (write : Bool)
  | winWrite (p : PlaneId) (tag : Tag) (be : BitVec 4) (k : Fin 512) (data : Word)
  | hCommit (p : PlaneId) (tag : Tag)
  | hDiscard (p : PlaneId) (tag : Tag)
  | flush (p : PlaneId) (tag : Tag)
  | chainSeal (p : PlaneId)
  | first (p : PlaneId) (tag : Tag)
  | firstCirc (p : PlaneId) (tag : Tag)
  | next (p : PlaneId) (tag : Tag)
  | seek (p : PlaneId) (tag : Tag)
  | recordLoadDone (p : PlaneId) (path : Fin 9)
  | appNote (p : PlaneId) (tag : Tag) (len : BitVec 9) (sev : BitVec 2) (priv : Bool)
  -- the real-time clock (chapter 16)
  | subsecRead (p : PlaneId) (tag : Tag)
  | writeGo (p : PlaneId) (tag : Tag)
  | shift (p : PlaneId) (tag : Tag) (value : BitVec 16)
  | rtcSecondBoundary (p : PlaneId)
  | crystalStop (p : PlaneId)
  | arm (p : PlaneId) (tag : Tag) (u : Fin 14) (comps : BitVec 2)
  | disarm (p : PlaneId) (tag : Tag) (u : Fin 14) (comps : BitVec 2)
  | periodicWakeFire (p : PlaneId) (k : Fin 2)
  | pwronRequestEnd (source : Option PlaneId)
  | crystalRestart (p : PlaneId)
  -- Basins and background work (chapter 17)
  | basinAccess (p : PlaneId) (b : Fin 64) (reqs : List BasinReq)
  | bCfgWrite (p : PlaneId) (tag : Tag) (be : BitVec 4) (data : Word)
  | basinClearDone (p : PlaneId) (b : Fin 64)
  | scrub (p : PlaneId) (b : Fin 64) (found : List (Nat × Bool))
  | regionTest (p : PlaneId) (pass : Bool)
  | leakageCheck (port : Fin 128) (result : LeakResult)
  | telemetry (t : Telemetry)
  | runNow (p : PlaneId) (tag : Tag) (acts : BitVec 6)
  | bkgDeferred (p : PlaneId) (act : Fin 6)
  -- start-up, restart and faults (chapter 18)
  | modulePowerOn (backupA backupB : Bool)
  | planeStart (p : PlaneId) (m : StartMeas)
  | delayedClaim (p : PlaneId)
  | planeRestart (p : PlaneId) (tag : Tag)
  | moduleRestartWarm (p : PlaneId) (tag : Tag)
  | moduleRestartCold (p : PlaneId) (tag : Tag)
  | moduleRestartDisable
  | moduleReset
  | watchdog (p : PlaneId)
  | supplyMonitorFail (p : PlaneId)
  | supercapStop (p : PlaneId)
  | mainsReturnRestart
  | holdupTest (p : PlaneId) (ms : Nat)
  | faultRaised (p : PlaneId) (reg : Fin 3) (bit : Fin 13)
  | faultCleared (p : PlaneId) (reg : Fin 3) (bit : Fin 13)
  | autoRestart (p : PlaneId)
  | relayTest (p : PlaneId) (tag : Tag)
  | relayTestEnd (p : PlaneId)
  | syncLinkUp
  | linkUp (p : PlaneId) (link : Fin 2)
  | dynamicStateArrival (p : PlaneId)
  | abortSync (slot : Fin 256) (answer : Fin 6) (stamp : Nat)
  | errorFrame (ch : Fin 8) (code : Fin 8) (primary : Bool) (dataPhase : Bool)
  | integration (ch : Fin 8)
deriving DecidableEq, Repr

end Sys2Proof
end

