-- ==== Sys2Proof/Config.lean ====
section
/-!
DEFINITION. What the spec leaves to the part or leaves open: free values with no body, so that nothing can be proved of
the value itself. Each is named in the assumption log.
-/
namespace Sys2Proof

/-- SM3 (GM/T 0004): 32 digest bytes. The standard is named by the spec (R4) and not given in it. (PRESUMED, safe: assumption 12.) -/
opaque Config.sm3 : List (BitVec 8) → Nat → BitVec 8

/-- SM3-HMAC of a message under a key: 32 bytes, by index. (PRESUMED, safe: assumption 12.) -/
opaque Config.hmac : List (BitVec 8) → List (BitVec 8) → Nat → BitVec 8

/-- SM4 with a mode, an initial value, a key and a text: the bytes of the result, by index (GM/T 0002). (PRESUMED, safe: assumption 12.) -/
opaque Config.sm4 : Nat → List (BitVec 8) → List (BitVec 8) → List (BitVec 8) → Nat → BitVec 8

/-- SM2 signature bytes over a message by a private key, with the nonce number of the draw (GM/T 0003). (PRESUMED, safe: assumption 12.) -/
opaque Config.sm2Sign : List (BitVec 8) → List (BitVec 8) → Nat → Nat → BitVec 8

/-- Whether an SM2 signature over a message verifies under a public key. (PRESUMED, safe: assumption 12.) -/
opaque Config.sm2Verify : List (BitVec 8) → List (BitVec 8) → List (BitVec 8) → Bool

/-- The public key bytes of an SM2 private key. (PRESUMED, safe: assumption 12.) -/
opaque Config.sm2Public : List (BitVec 8) → Nat → BitVec 8

/-- Z of GM/T 0003 for a public key with the default identifier: 32 bytes (R340). (PRESUMED, safe: assumption 12.) -/
opaque Config.sm2Z : List (BitVec 8) → Nat → BitVec 8

/-- SM2 ciphertext C1, C3, C2 of a text under a public key, with the nonce number of the draw (GM/T 0003). (PRESUMED, safe: assumption 12.) -/
opaque Config.sm2Enc : List (BitVec 8) → List (BitVec 8) → Nat → Nat → BitVec 8

/-- Whether C3 of an SM2 ciphertext matches under a private key. (PRESUMED, safe: assumption 12.) -/
opaque Config.sm2DecOk : List (BitVec 8) → List (BitVec 8) → Bool

/-- The text of an SM2 ciphertext under a private key. (PRESUMED, safe: assumption 12.) -/
opaque Config.sm2Plain : List (BitVec 8) → List (BitVec 8) → Nat → BitVec 8

/-- Whether 64 bytes X, Y are a point on the SM2 curve. (PRESUMED, safe: assumption 12.) -/
opaque Config.sm2OnCurve : List (BitVec 8) → Bool

/-- The public key of a firmware fuse key position (R344). (DESIGN CHOICE, safe: assumption 13.) -/
opaque Config.fuseKey : Nat → Nat → BitVec 8

/-- The device certificate of a plane, in DER (R350). (DESIGN CHOICE, safe: assumption 13.) -/
opaque Config.deviceCert : Nat → List (BitVec 8)

/-- Key derivation: parent key, label bytes, to key bytes by index (R323, R332). (PRESUMED, safe: assumption 12.) -/
opaque Config.kdf : List (BitVec 8) → List (BitVec 8) → Nat → BitVec 8

/-- The random bytes of draw `n`, by index (R321). (DESIGN CHOICE, safe: assumption 13.) -/
opaque Config.random : Nat → Nat → BitVec 8

/-- The regenerated root secret of a plane and fuse bank (R320 to R322). (DESIGN CHOICE, safe: assumption 13.) -/
opaque Config.root : Nat → Nat → Nat → BitVec 8

/-- The module's source identity and device identity from its fuses, by word (R93, R350). (DESIGN CHOICE, safe: assumption 13.) -/
opaque Config.fuse : Nat → BitVec 32

/-- P(c) while LOCKED, from the tracking bandwidth, the measured period, the phase error and the last P(c) (R71, R73). (DESIGN CHOICE, safe: assumption 14.) -/
opaque Config.lockedPeriod : Nat → Nat → Int → Nat → Nat

/-- A harmonic or distortion figure of a plane's samples: register number and cycle number (R173, R174). (DESIGN CHOICE, safe: assumption 15.) -/
opaque Config.harmonic : Nat → Nat → Int

/-- A word of a Tarn page whose layout the spec does not give, as the host window shows it: page, word and draw number. (DESIGN CHOICE, safe: assumption 16.) -/
opaque Config.tarnWord : Nat → Nat → Nat → BitVec 32

/-- RD_PAGE of a record that is staged and lies in no page yet, by SEQ. (DESIGN CHOICE, safe: assumption 17.) -/
opaque Config.stagedPage : Nat → BitVec 32

/-- A value the spec leaves open, by draw number. (DESIGN CHOICE, safe: assumption 18.) -/
opaque Config.free : Nat → Nat

end Sys2Proof
end

