-- ==== Sys2Proof/Machine/Operands.lean ====
section
/-!
DEFINITION. Operand forms: bit fields of a word (R15), byte enables (R48), little-endian bytes (R17), signed readings of
a field, and bounded arithmetic (saturating counts, two's complement).
-/
namespace Sys2Proof.Machine

/-- Field `[hi:lo]` of a word as a number (R15). -/
def fld (w : Word) (hi lo : Nat) : Nat := (w.toNat / 2 ^ lo) % 2 ^ (hi + 1 - lo)

/-- Bit `n` of a word. -/
def bit (w : Word) (n : Nat) : Bool := w.getLsbD n

/-- The mask of field `[hi:lo]`. -/
def maskOf (hi lo : Nat) : Word := BitVec.ofNat 32 ((2 ^ (hi + 1 - lo) - 1) * 2 ^ lo)

/-- `old` with the bits of `mask` taken from `new`. -/
def merge (mask old new : Word) : Word := (old &&& ~~~mask) ||| (new &&& mask)

/-- A word with field `[hi:lo]` set to `v`, cut to the field's width. -/
def setFld (w : Word) (hi lo v : Nat) : Word :=
  merge (maskOf hi lo) w (BitVec.ofNat 32 (v % 2 ^ (hi + 1 - lo) * 2 ^ lo))

/-- A word with bit `n` set to `b`. -/
def setBit (w : Word) (n : Nat) (b : Bool) : Word := setFld w n n b.toNat

/-- The bits that byte enables cover (R48): BE[n] covers bits 8n+7 to 8n. -/
def beMask (be : BitVec 4) : Word :=
  (if be.getLsbD 0 then 0x000000FF#32 else 0) ||| (if be.getLsbD 1 then 0x0000FF00#32 else 0) |||
  (if be.getLsbD 2 then 0x00FF0000#32 else 0) ||| (if be.getLsbD 3 then 0xFF000000#32 else 0)

/-- Low and high half of a 64-bit value (R49). -/
def lo32 (n : Nat) : Word := BitVec.ofNat 32 n
def hi32 (n : Nat) : Word := BitVec.ofNat 32 (n / 2 ^ 32)

/-- The 64-bit value of two halves. -/
def cat64 (hi lo : Word) : Nat := hi.toNat * 2 ^ 32 + lo.toNat

/-- `n` bytes of a number, least significant first (R17). -/
def leBytes : Nat → Nat → List Byte
  | 0, _ => []
  | n + 1, v => BitVec.ofNat 8 v :: leBytes n (v / 256)

/-- The number that bytes spell, least significant first (R17). -/
def ofLe : List Byte → Nat
  | [] => 0
  | b :: r => b.toNat + 256 * ofLe r

/-- `n` bytes of a number, most significant first (the standards' byte order, R17). -/
def beBytes (n v : Nat) : List Byte := (leBytes n v).reverse

/-- The number that bytes spell, most significant first. -/
def ofBe (l : List Byte) : Nat := ofLe l.reverse

/-- The little-endian bytes of a list of words. -/
def wordBytes (l : List Word) : List Byte := l.flatMap fun w => leBytes 4 w.toNat

/-- The words that bytes spell; a short last word is padded with 0. -/
def bytesWords : List Byte → List Word
  | a :: b :: c :: d :: r => BitVec.ofNat 32 (ofLe [a, b, c, d]) :: bytesWords r
  | [] => []
  | l => [BitVec.ofNat 32 (ofLe l)]

/-- Bytes `[off, off + n)` of a list, 0 where the list is shorter. -/
def slice (l : List Byte) (off n : Nat) : List Byte :=
  (List.range n).map fun i => l.getD (off + i) 0

/-- The signed value of the low `n` bits of `v`. -/
def sext (n v : Nat) : Int := if v % 2 ^ n < 2 ^ (n - 1) then (v % 2 ^ n : Nat) else ((v % 2 ^ n : Nat) : Int) - 2 ^ n

/-- The two's complement spelling of an integer in `n` bits. -/
def toTwos (n : Nat) (v : Int) : Nat := (v % (2 ^ n : Int)).toNat

/-- A count that stops at `m`. -/
def satInc (m v : Nat) : Nat := if v < m then v + 1 else v

/-- A sum that stops at `m`. -/
def satAdd (m v k : Nat) : Nat := if v + k ≤ m then v + k else m

/-- `a` cut to the range `[lo, hi]`. -/
def clampI (lo hi a : Int) : Int := if a < lo then lo else if hi < a then hi else a

/-- Replace element `i` of a list; a list too short stays. -/
def setAt {α : Type} (l : List α) (i : Nat) (v : α) : List α := l.set i v

/-- The numbers below `n` that satisfy `p`, in rising order. -/
def below (n : Nat) (p : Nat → Bool) : List Nat := (List.range n).filter p

end Sys2Proof.Machine
end

