-- ==== Sys2Proof/Machine/Tab.lean ====
section
/-!
DEFINITION. Sparse tables: a list of (key, value) pairs with strictly rising keys, in which no entry equals what an
unlisted key reads as. Every table of the machine (registers, points, slots, Tarn pages, …) is one.
-/
namespace Sys2Proof.Machine

/-- A sparse table from a number (an address, an index) to a value. -/
abbrev Tab (α : Type) := List (Nat × α)

/-- What the table reads as at `k`; `d` is what an unlisted key reads as. -/
def Tab.get {α : Type} (d : Nat → α) : Tab α → Nat → α
  | [], k => d k
  | (j, v) :: r, k => if j = k then v else Tab.get d r k

/-- Insert or replace in key order. -/
def Tab.ins {α : Type} : Tab α → Nat → α → Tab α
  | [], k, v => [(k, v)]
  | (j, w) :: r, k, v =>
    if j < k then (j, w) :: Tab.ins r k v else if j = k then (k, v) :: r else (k, v) :: (j, w) :: r

/-- Drop the entry of a key. -/
def Tab.del {α : Type} (t : Tab α) (k : Nat) : Tab α := t.filter fun e => e.1 ≠ k

/-- Write one entry, keeping the canonical form: writing what an unlisted key reads as removes the entry. -/
def Tab.put {α : Type} [DecidableEq α] (d : Nat → α) (t : Tab α) (k : Nat) (v : α) : Tab α :=
  if v = d k then Tab.del t k else Tab.ins t k v

/-- Keys strictly above `lo` and rising. -/
def Tab.sorted {α : Type} : Option Nat → Tab α → Bool
  | _, [] => true
  | none, (j, _) :: r => Tab.sorted (some j) r
  | some i, (j, _) :: r => decide (i < j) && Tab.sorted (some j) r

/-- The canonical form. -/
def Tab.wf {α : Type} [DecidableEq α] (d : Nat → α) (t : Tab α) : Bool :=
  Tab.sorted none t && t.all fun e => decide (e.2 ≠ d e.1)

/-- Write a list of entries in order. -/
def Tab.putAll {α : Type} [DecidableEq α] (d : Nat → α) (t : Tab α) (l : List (Nat × α)) : Tab α :=
  l.foldl (fun t e => Tab.put d t e.1 e.2) t

end Sys2Proof.Machine
end

