-- ==== Sys2Proof/Machine/RegMap.lean ====
section
/-!
DEFINITION. The register map of a plane (R39, R41 to R46 and the register tables of every chapter): for each register
its offset, its access masks (R18), its reset value (R21) and its first-start value (R461). One row per register of the
spec's tables, grouped by block.
-/
namespace Sys2Proof.Machine

/-- One register row of a block page. `cnt` instances lie `stride` bytes apart from `off`; a `wide` register is a
low word at `off` and a high word at `off + 4` (R49). The masks say which bits of the word have which access code
(R18); bits in no mask are reserved and read 0 (R20). `tarn` marks the bits recalled from the persistent store and
`backup` those kept by the clock's backup domain; `fs` is the first-start value of the former (R461), which only
instance 0 takes where `fsFirst` holds. `perPath` registers exist once per access path. -/
structure RegDef where
  off : Nat
  cnt : Nat := 1
  stride : Nat := 4
  wide : Bool := false
  perPath : Bool := false
  rw : Nat := 0
  rws : Nat := 0
  wo : Nat := 0
  w1c : Nat := 0
  rc : Nat := 0
  ro : Nat := 0
  reset : Nat := 0
  tarn : Nat := 0
  backup : Nat := 0
  fs : Nat := 0
  fsFirst : Bool := false
deriving DecidableEq, Repr

/-- Registers of the SYS page(s), from offset 0x004 up. -/
def regsSYS : List RegDef := [
  { off := 0x4, rw := 0x100, ro := 0x3, reset := 0x1 },  -- CTRL
  { off := 0x8, ro := 0x7 },  -- STAT
  { off := 0xC, w1c := 0x1F01 },  -- EVT
  { off := 0x10, rw := 0x1F01 },  -- EVT_EN
  { off := 0x14, rws := 0x13F, ro := 0x80000000, tarn := 0x13F },  -- OWNER
  { off := 0x18, rc := 0xFFFF },  -- ERR_CNT
  { off := 0x1C, wo := 0xFFFFFFFF },  -- SEAL
  { off := 0x40, cnt := 3, ro := 0xFFFFFFFF },  -- EVT_SUM
  { off := 0x4C, ro := 0x7 },  -- PLANE
  { off := 0x50, rw := 0x1, wo := 0x2 },  -- CFG_CTRL
  { off := 0x54, w1c := 0x2, ro := 0x7FF0001 },  -- CFG_STAT
  { off := 0x58, ro := 0xFFFFFFFF },  -- CFG_EPOCH
  { off := 0x60, stride := 0x8, wide := true, ro := 0xFFFFFFFF },  -- NOW
  { off := 0x68, stride := 0x8, wide := true, ro := 0xFFFFFFFF },  -- CFG_AT
  { off := 0x70, rc := 0xFFFF }]  -- UNMAP_CNT

/-- Registers of the ACCESS page(s), from offset 0x004 up. -/
def regsACCESS : List RegDef := [
  { off := 0x4, ro := 0x3, reset := 0x1 },  -- CTRL
  { off := 0x8, ro := 0x7 },  -- STAT
  { off := 0xC, w1c := 0x301 },  -- EVT
  { off := 0x10, rw := 0x301 },  -- EVT_EN
  { off := 0x14, rws := 0x13F, ro := 0x80000000, tarn := 0x13F },  -- OWNER
  { off := 0x18, rc := 0xFFFF },  -- ERR_CNT
  { off := 0x1C, wo := 0xFFFFFFFF },  -- SEAL
  { off := 0x40, rws := 0xFFFFFFFF, tarn := 0xFFFFFFFF, fs := 0x1 },  -- HRP_ALLOW_LO
  { off := 0x44, rws := 0xFFFFFFFF, tarn := 0xFFFFFFFF },  -- HRP_ALLOW_HI
  { off := 0x48, rws := 0xFFFFFFFF, tarn := 0xFFFFFFFF, fs := 0x1 },  -- REM_ALLOW_LO
  { off := 0x4C, rws := 0xFFFFFFFF, tarn := 0xFFFFFFFF },  -- REM_ALLOW_HI
  { off := 0x50, rc := 0xFFFF },  -- VIOL_CNT
  { off := 0x54, ro := 0xFFF13F },  -- LAST_VIOL
  { off := 0x58, ro := 0x3FFFFF },  -- LAST_VIOL_ADDR
  { off := 0x5C, stride := 0x8, wide := true, ro := 0xFFFFFFFF },  -- LAST_VIOL_AT
  { off := 0x64, rws := 0xFFFF, tarn := 0xFFFF, fs := 0x1439 },  -- MOARNO
  { off := 0x80, cnt := 8, ro := 0x13F }]  -- SESS

/-- Registers of the TENANT page(s), from offset 0x004 up. -/
def regsTENANT : List RegDef := [
  { off := 0x4, ro := 0x3, reset := 0x1 },  -- CTRL
  { off := 0x8, ro := 0x7 },  -- STAT
  { off := 0xC, w1c := 0x101 },  -- EVT
  { off := 0x10, rw := 0x101 },  -- EVT_EN
  { off := 0x14, rws := 0x13F, ro := 0x80000000, tarn := 0x13F },  -- OWNER
  { off := 0x18, rc := 0xFFFF },  -- ERR_CNT
  { off := 0x1C, wo := 0xFFFFFFFF },  -- SEAL
  { off := 0x40, perPath := true, rw := 0x3F },  -- USE_SEL
  { off := 0x44, ro := 0x3FFFFFF },  -- USE_0
  { off := 0x48, ro := 0x1FFF3FFF },  -- USE_1
  { off := 0x4C, ro := 0x1FFFFFF },  -- USE_2
  { off := 0x50, ro := 0xF7F },  -- USE_3
  { off := 0x100, cnt := 63, rw := 0x10FFF, tarn := 0x10FFF, fs := 0xA, fsFirst := true }]  -- T

/-- Registers of the MPE page(s), from offset 0x004 up. -/
def regsMPE : List RegDef := [
  { off := 0x4, ro := 0x3, reset := 0x1 },  -- CTRL
  { off := 0x8, ro := 0xFF07 },  -- STAT
  { off := 0xC, w1c := 0x3F01 },  -- EVT
  { off := 0x10, rw := 0x3F01 },  -- EVT_EN
  { off := 0x14, rws := 0x13F, ro := 0x80000000, tarn := 0x13F },  -- OWNER
  { off := 0x18, rc := 0xFFFF },  -- ERR_CNT
  { off := 0x1C, wo := 0xFFFFFFFF },  -- SEAL
  { off := 0x40, rw := 0x1FF3106, ro := 0x1, reset := 0x1, tarn := 0x1FF3106, fs := 0xE61006 },  -- CFG
  { off := 0x44, rw := 0xFFFFF, tarn := 0xFFFFF },  -- PHASE_OFS
  { off := 0x48, ro := 0x1FFFF },  -- FREQ
  { off := 0x4C, ro := 0xFFFFFFFF },  -- PERIOD
  { off := 0x50, ro := 0xFFFFF },  -- PHASE_ERR
  { off := 0x54, rc := 0xFFFF },  -- SLW_CNT
  { off := 0x58, rc := 0xFFFF },  -- FLY_CNT
  { off := 0x5C, rc := 0xFFFF },  -- STEER_CNT
  { off := 0x60, stride := 0x8, wide := true, ro := 0xFFFFFFFF },  -- TT
  { off := 0x68, stride := 0x8, wide := true, ro := 0xFFFFFFFF },  -- SLW_AT
  { off := 0x70, stride := 0x8, wide := true, ro := 0xFFFFFFFF }]  -- OK_AT

/-- Registers of the PTP page(s), from offset 0x004 up. -/
def regsPTP : List RegDef := [
  { off := 0x4, rw := 0x1, wo := 0x2, tarn := 0x1 },  -- CTRL
  { off := 0x8, ro := 0x3F07 },  -- STAT
  { off := 0xC, w1c := 0x3F01 },  -- EVT
  { off := 0x10, rw := 0x3F01 },  -- EVT_EN
  { off := 0x14, rws := 0x13F, ro := 0x80000000, tarn := 0x13F },  -- OWNER
  { off := 0x18, rc := 0xFFFF },  -- ERR_CNT
  { off := 0x1C, wo := 0xFFFFFFFF },  -- SEAL
  { off := 0x40, rw := 0xFFF03, tarn := 0xFFF03, fs := 0xF0000 },  -- CFG
  { off := 0x44, rw := 0xFF3F0100, rws := 0x1, tarn := 0xFF3F0101, fs := 0xA200100 },  -- CYC_CFG
  { off := 0x48, rws := 0xFFFF, tarn := 0xFFFF },  -- BUILDING
  { off := 0x4C, rw := 0xFFFFFFFF, reset := 0xEFC02F11 },  -- ANN_GROUP
  { off := 0x50, rw := 0xFFFF, rws := 0xFF0000, reset := 0x143A, tarn := 0xFF0000 },  -- ANN_PORT
  { off := 0x54, ro := 0xFFFFFFFF },  -- SOURCE_ID
  { off := 0x58, ro := 0xFFFFFFFF },  -- FOLLOW_ID
  { off := 0x60, ro := 0xFFFFFFFF },  -- OFFSET
  { off := 0x64, ro := 0xFFFFFFFF },  -- PATH
  { off := 0x68, ro := 0xFFFF },  -- TRIM
  { off := 0x6C, ro := 0xFFFFFFFF },  -- RESID
  { off := 0x70, ro := 0xFFFFFFFF },  -- CYC_DIFF
  { off := 0x74, wo := 0x1 },  -- CYC_CTRL
  { off := 0x78, rc := 0xFFFF },  -- ANN_RX
  { off := 0x7C, rc := 0xFFFF }]  -- ANN_BAD

/-- Registers of the WEIR page(s), from offset 0x004 up. -/
def regsWEIR : List RegDef := [
  { off := 0x4, rw := 0x1, ro := 0x2, reset := 0x1 },  -- CTRL
  { off := 0x8, ro := 0x107 },  -- STAT
  { off := 0xC, w1c := 0x701 },  -- EVT
  { off := 0x10, rw := 0x701 },  -- EVT_EN
  { off := 0x14, rws := 0x13F, ro := 0x80000000, tarn := 0x13F },  -- OWNER
  { off := 0x18, rc := 0xFFFF },  -- ERR_CNT
  { off := 0x1C, wo := 0xFFFFFFFF },  -- SEAL
  { off := 0x40, rw := 0xFF, tarn := 0xFF, fs := 0x40 },  -- CFG
  { off := 0x44, ro := 0xF0F, reset := 0x404 },  -- GAP
  { off := 0x48, cnt := 4, rw := 0xFF, tarn := 0xFF, fs := 0x10 },  -- UPL_ALLOW
  { off := 0x58, cnt := 8, rw := 0x1FFF, ro := 0xFFFF0000, tarn := 0x1FFF, fs := 0xDAC },  -- CAN_BUDGET
  { off := 0x78, rc := 0xFFFF },  -- ACC_CNT
  { off := 0x7C, rc := 0xFFFFFFFF },  -- REF_A
  { off := 0x80, rc := 0xFFFFFFFF },  -- REF_B
  { off := 0x84, rc := 0xFFFF },  -- REF_C
  { off := 0x88, rc := 0xFFFF },  -- BROKEN_CNT
  { off := 0x8C, ro := 0x1FF }]  -- INFLIGHT

/-- Registers of the CMD page(s), from offset 0x004 up. -/
def regsCMD : List RegDef := [
  { off := 0x4, ro := 0x3, reset := 0x1 },  -- CTRL
  { off := 0x8, ro := 0x7 },  -- STAT
  { off := 0xC, w1c := 0x301 },  -- EVT
  { off := 0x10, rw := 0x301 },  -- EVT_EN
  { off := 0x14, rws := 0x13F, ro := 0x80000000, tarn := 0x13F },  -- OWNER
  { off := 0x18, rc := 0xFFFF },  -- ERR_CNT
  { off := 0x1C, wo := 0xFFFFFFFF },  -- SEAL
  { off := 0x40, cnt := 8, perPath := true, wo := 0xFFFFFFFF },  -- SUBMIT
  { off := 0x60, perPath := true, ro := 0xFFFFFF },  -- RESULT
  { off := 0x64, perPath := true, ro := 0xFFFFFFFF },  -- SEQ
  { off := 0x68, stride := 0x8, wide := true, perPath := true, ro := 0xFFFFFFFF },  -- LAUNCH
  { off := 0x70, perPath := true, wo := 0xFF },  -- ABORT
  { off := 0x74, perPath := true, ro := 0x7 },  -- ABORT_RESULT
  { off := 0x78, perPath := true, rw := 0xFF },  -- SEL
  { off := 0x7C, ro := 0xFFFFFFFF },  -- SEL_SEQ
  { off := 0x80, stride := 0x8, wide := true, ro := 0xFFFFFFFF },  -- SEL_LAUNCH
  { off := 0x88, stride := 0x8, wide := true, ro := 0xFFFFFFFF },  -- SEL_DEADLINE
  { off := 0x90, stride := 0x8, wide := true, ro := 0xFFFFFFFF },  -- SEL_DONE_AT
  { off := 0x98, perPath := true, rw := 0x7FFFFF, reset := 0x10000 },  -- Q_SEL
  { off := 0x9C, perPath := true, ro := 0x1FFFF },  -- Q_RES
  { off := 0xA0, cnt := 8, w1c := 0xFFFFFFFF },  -- DONE
  { off := 0xC0, perPath := true, ro := 0x1FFFF },  -- Q_CAP
  { off := 0x400, cnt := 256, ro := 0xFFFFFFFF }]  -- SLOT

/-- Registers of the LFAB page(s), from offset 0x004 up. -/
def regsLFAB : List RegDef := [
  { off := 0x4, ro := 0x3, reset := 0x1 },  -- CTRL
  { off := 0x8, ro := 0x107 },  -- STAT
  { off := 0xC, w1c := 0xF01 },  -- EVT
  { off := 0x10, rw := 0xF01 },  -- EVT_EN
  { off := 0x14, rws := 0x13F, ro := 0x80000000, tarn := 0x13F },  -- OWNER
  { off := 0x18, rc := 0xFFFF },  -- ERR_CNT
  { off := 0x1C, wo := 0xFFFFFFFF },  -- SEAL
  { off := 0x40, ro := 0x3 },  -- LINK
  { off := 0x44, cnt := 2, rc := 0xFFFF },  -- NAK
  { off := 0x4C, cnt := 2, rc := 0xFFFF },  -- CRC_RX
  { off := 0x54, rc := 0xFFFF },  -- RESEND2_CNT
  { off := 0x58, rc := 0xFFFF },  -- LOST_CNT
  { off := 0x5C, rc := 0xFFFF },  -- REJECT_CNT
  { off := 0x60, cnt := 2, ro := 0x1FFFF },  -- LOAD
  { off := 0x68, wo := 0x3 }]  -- INJECT

/-- Registers of the PMAP page(s), from offset 0x004 up. -/
def regsPMAP : List RegDef := [
  { off := 0x4, ro := 0x3, reset := 0x1 },  -- CTRL
  { off := 0x8, ro := 0x7 },  -- STAT
  { off := 0xC, w1c := 0x701 },  -- EVT
  { off := 0x10, rw := 0x701 },  -- EVT_EN
  { off := 0x14, rws := 0x13F, ro := 0x80000000, tarn := 0x13F },  -- OWNER
  { off := 0x18, rc := 0xFFFF },  -- ERR_CNT
  { off := 0x1C, wo := 0xFFFFFFFF },  -- SEAL
  { off := 0x40, ro := 0x3FFF },  -- COUNT
  { off := 0x44, ro := 0xFF1FFF },  -- BAD_IDX
  { off := 0x48, rc := 0xFFFF },  -- BAD_CNT
  { off := 0x4C, rc := 0xFFFF },  -- UNC_CNT
  { off := 0x50, ro := 0x1FFF },  -- LAST_BAD
  { off := 0x800, cnt := 512, ro := 0xFFFFFFFF }]  -- QUAL

/-- Registers of the ACT page(s), from offset 0x004 up. -/
def regsACT : List RegDef := [
  { off := 0x4, ro := 0x3, reset := 0x1 },  -- CTRL
  { off := 0x8, ro := 0x7 },  -- STAT
  { off := 0xC, w1c := 0xF01 },  -- EVT
  { off := 0x10, rw := 0xF01 },  -- EVT_EN
  { off := 0x14, rws := 0x13F, ro := 0x80000000, tarn := 0x13F },  -- OWNER
  { off := 0x18, rc := 0xFFFF },  -- ERR_CNT
  { off := 0x1C, wo := 0xFFFFFFFF },  -- SEAL
  { off := 0x40, ro := 0xFF0FFF },  -- BAD_IDX
  { off := 0x44, ro := 0x1FFF },  -- STANDING
  { off := 0x48, rc := 0xFFFF },  -- MISS_CNT
  { off := 0x4C, ro := 0xF0FFF },  -- MISS_IDX
  { off := 0x50, rc := 0xFFFF },  -- FIRE_CNT
  { off := 0x800, cnt := 512, ro := 0xFFFFFFFF }]  -- STATE

/-- Registers of the PORTG page(s), from offset 0x004 up. -/
def regsPORTG : List RegDef := [
  { off := 0x4, ro := 0x3, reset := 0x1 },  -- CTRL
  { off := 0x8, ro := 0xFF07 },  -- STAT
  { off := 0xC, w1c := 0xFFFFFF01 },  -- EVT
  { off := 0x10, rw := 0xFFFFFF01 },  -- EVT_EN
  { off := 0x14, rws := 0x13F, ro := 0x80000000, tarn := 0x13F },  -- OWNER
  { off := 0x18, rc := 0xFFFF },  -- ERR_CNT
  { off := 0x1C, wo := 0xFFFFFFFF },  -- SEAL
  { off := 0x40, ro := 0xFFFFF },  -- GRP_ALLOC
  { off := 0x44, ro := 0xFFFFF },  -- GRP_DRAW
  { off := 0x80, cnt := 8, stride := 0x20, rw := 0xFFFFFF07, tarn := 0xFFFFFF07, fs := 0x80000002 },  -- CFG
  { off := 0x84, cnt := 8, stride := 0x20, rw := 0x3, ro := 0x100, tarn := 0x3 },  -- STATE
  { off := 0x88, cnt := 8, stride := 0x20, ro := 0xFFF7FFFF, reset := 0xFF000FF0 },  -- LIVE
  { off := 0x8C, cnt := 8, stride := 0x20, ro := 0x1FFFF },  -- POWER
  { off := 0x90, cnt := 8, stride := 0x20, ro := 0xFFFFFFFF },  -- VI
  { off := 0x94, cnt := 8, stride := 0x20, ro := 0x1FFFF },  -- ALLOC
  { off := 0x98, cnt := 8, stride := 0x20, rc := 0xFFFFFF }]  -- CNT

/-- Registers of the PWR page(s), from offset 0x004 up. -/
def regsPWR : List RegDef := [
  { off := 0x4, ro := 0x3, reset := 0x1 },  -- CTRL
  { off := 0x8, ro := 0xF07 },  -- STAT
  { off := 0xC, w1c := 0x1F01 },  -- EVT
  { off := 0x10, rw := 0x1F01 },  -- EVT_EN
  { off := 0x14, rws := 0x13F, ro := 0x80000000, tarn := 0x13F },  -- OWNER
  { off := 0x18, rc := 0xFFFF },  -- ERR_CNT
  { off := 0x1C, wo := 0xFFFFFFFF },  -- SEAL
  { off := 0x40, rw := 0x1FF, tarn := 0x1FF, fs := 0x114 },  -- CFG
  { off := 0x44, ro := 0x7FFFFF },  -- AVAIL
  { off := 0x48, ro := 0x7FFFFF },  -- ALLOC_SUM
  { off := 0x4C, ro := 0x7FFFFF },  -- DRAW
  { off := 0x50, ro := 0xFF1FF3 },  -- SUPPLY
  { off := 0x54, ro := 0xF },  -- CELLS
  { off := 0x58, stride := 0x8, wide := true, ro := 0xFFFFFFFF },  -- SHED_AT
  { off := 0x60, rc := 0xFFFF },  -- SHED_CNT
  { off := 0x64, ro := 0xFF }]  -- WAITING

/-- Registers of the METER page(s), from offset 0x004 up. -/
def regsMETER : List RegDef := [
  { off := 0x4, ro := 0x3, reset := 0x1 },  -- CTRL
  { off := 0x8, ro := 0x107 },  -- STAT
  { off := 0xC, w1c := 0x701 },  -- EVT
  { off := 0x10, rw := 0x701 },  -- EVT_EN
  { off := 0x14, rws := 0x13F, ro := 0x80000000, tarn := 0x13F },  -- OWNER
  { off := 0x18, rc := 0xFFFF },  -- ERR_CNT
  { off := 0x1C, wo := 0xFFFFFFFF },  -- SEAL
  { off := 0x40, ro := 0x30FFF7F },  -- CH_FAULT
  { off := 0x44, perPath := true, rw := 0xFFFF },  -- Q_SEL
  { off := 0x48, perPath := true, ro := 0x3 },  -- Q_STAT
  { off := 0x50, stride := 0x8, wide := true, perPath := true, ro := 0xFFFFFFFF },  -- Q_VAL
  { off := 0x58, rc := 0xFFFF },  -- CAL_CNT
  { off := 0x5C, rc := 0xFFFF },  -- CAL_FAIL_CNT
  { off := 0x60, cnt := 3, rw := 0xFFFF, tarn := 0xFFFF, fs := 0x47E },  -- AC_NL
  { off := 0x6C, rw := 0xFFFF, tarn := 0xFFFF, fs := 0xD7A },  -- AC_NL_TOTAL
  { off := 0x80, cnt := 12, stride := 0x8, rw := 0xFFFF3F0F, tarn := 0xFFFF3F0F, fs := 0xA00000 },  -- AUX_CFG
  { off := 0x84, cnt := 12, stride := 0x8, rw := 0xFFFF, tarn := 0xFFFF, fs := 0x398 },  -- AUX_NL
  { off := 0x400, cnt := 128, rw := 0xFFFF, tarn := 0xFFFF, fs := 0xFA }]  -- PORT_NL

/-- Registers of the TACC page(s), from offset 0x004 up. -/
def regsTACC : List RegDef := [
  { off := 0x4, ro := 0x3, reset := 0x1 },  -- CTRL
  { off := 0x8, ro := 0x107 },  -- STAT
  { off := 0xC, w1c := 0xF01 },  -- EVT
  { off := 0x10, rw := 0xF01 },  -- EVT_EN
  { off := 0x14, rws := 0x13F, ro := 0x80000000, tarn := 0x13F },  -- OWNER
  { off := 0x18, rc := 0xFFFF },  -- ERR_CNT
  { off := 0x1C, wo := 0xFFFFFFFF },  -- SEAL
  { off := 0x40, rw := 0xFFFF, tarn := 0xFFFF, fs := 0xF0A },  -- CFG
  { off := 0x44, stride := 0x8, wide := true, ro := 0xFFFFFFFF, tarn := 0xFFFFFFFF },  -- INTV
  { off := 0x4C, stride := 0x8, wide := true, ro := 0xFFFFFFFF },  -- CLOSE_AT
  { off := 0x54, ro := 0xFFFFFFFF },  -- D_AC
  { off := 0x58, ro := 0xFFFFFFFF },  -- D_PORT
  { off := 0x5C, ro := 0xFFFFFFFF },  -- D_AUX
  { off := 0x60, ro := 0xFFFFFFFF },  -- D_INT
  { off := 0x64, ro := 0xFFFFFFFF },  -- D_LOSS
  { off := 0x68, rc := 0xFFFF },  -- COMMIT_CNT
  { off := 0x6C, rc := 0xFFFF },  -- MISMATCH_CNT
  { off := 0x100, cnt := 63, ro := 0xFFFFFFFF },  -- LI
  { off := 0x200, cnt := 63, ro := 0xFFFFFFFF }]  -- LS

/-- Registers of the PULSE page(s), from offset 0x004 up. -/
def regsPULSE : List RegDef := [
  { off := 0x4, ro := 0x3, reset := 0x1 },  -- CTRL
  { off := 0x8, ro := 0x7 },  -- STAT
  { off := 0xC, w1c := 0xFF01 },  -- EVT
  { off := 0x10, rw := 0xFF01 },  -- EVT_EN
  { off := 0x14, rws := 0x13F, ro := 0x80000000, tarn := 0x13F },  -- OWNER
  { off := 0x18, rc := 0xFFFF },  -- ERR_CNT
  { off := 0x1C, wo := 0xFFFFFFFF },  -- SEAL
  { off := 0x40, cnt := 8, stride := 0x10, rw := 0xFFFFFF01, tarn := 0xFFFFFF01, fs := 0x2800 },  -- PO_CFG
  { off := 0x44, cnt := 8, stride := 0x10, rw := 0xFFFFFFFF, tarn := 0xFFFFFFFF, fs := 0xF4240 },  -- PO_CONST
  { off := 0x48, cnt := 8, stride := 0x10, ro := 0xFFFFFF, tarn := 0xFFFF },  -- PO_STATE
  { off := 0x4C, cnt := 8, stride := 0x10, ro := 0xFFFFFFFF }]  -- PO_CNT

/-- Registers of the SCAN page(s), from offset 0x004 up. -/
def regsSCAN : List RegDef := [
  { off := 0x4, ro := 0x3, reset := 0x1 },  -- CTRL
  { off := 0x8, ro := 0x7F07 },  -- STAT
  { off := 0xC, w1c := 0xFFF01 },  -- EVT
  { off := 0x10, rw := 0xFFF01 },  -- EVT_EN
  { off := 0x14, rws := 0x13F, ro := 0x80000000, tarn := 0x13F },  -- OWNER
  { off := 0x18, rc := 0xFFFF },  -- ERR_CNT
  { off := 0x1C, wo := 0xFFFFFFFF },  -- SEAL
  { off := 0x40, rw := 0xFF03FFFF, tarn := 0xFF03FFFF, fs := 0xA00000A },  -- CFG
  { off := 0x44, wo := 0x7 },  -- RUN
  { off := 0x48, ro := 0xFFFF00FF },  -- CHECK
  { off := 0x4C, ro := 0xFFFFFFFF },  -- WCET
  { off := 0x50, ro := 0xFFFFFFFF },  -- LIMIT
  { off := 0x54, stride := 0x8, wide := true, ro := 0xFFFFFFFF, tarn := 0xFFFFFFFF },  -- PROG_ID
  { off := 0x5C, ro := 0xFFFFFFFF },  -- SCANS
  { off := 0x60, stride := 0x8, wide := true, ro := 0xFFFFFFFF },  -- LAST_START
  { off := 0x68, ro := 0xFFFFFFFF },  -- LAST_TIME
  { off := 0x6C, rc := 0xFFFFFFFF },  -- MAX_TIME
  { off := 0x70, rc := 0xFFFF },  -- OVR_CNT
  { off := 0x74, rc := 0xFFFF },  -- DFAIL_CNT
  { off := 0x78, ro := 0x1FFFFFFF },  -- LAST_DFAIL
  { off := 0x7C, rc := 0xFFFF },  -- SLOT_FULL_CNT
  { off := 0x80, rc := 0xFFFF },  -- TAGV_CNT
  { off := 0x84, ro := 0x1FF },  -- FORCES
  { off := 0x88, rw := 0x7F, wo := 0x100 },  -- CHG_CTRL
  { off := 0x8C, ro := 0x7FFF03 },  -- CHG_STAT
  { off := 0x90, stride := 0x8, wide := true, ro := 0xFFFFFFFF },  -- CHG_AT
  { off := 0x100, cnt := 64, stride := 0x8, wide := true, rw := 0xFFFFFFFF }]  -- CHG

/-- Registers of the LOOP page(s), from offset 0x004 up. -/
def regsLOOP : List RegDef := [
  { off := 0x4, ro := 0x3, reset := 0x1 },  -- CTRL
  { off := 0x8, ro := 0x107 },  -- STAT
  { off := 0xC, w1c := 0xFF01 },  -- EVT
  { off := 0x10, rw := 0xFF01 },  -- EVT_EN
  { off := 0x14, rws := 0x13F, ro := 0x80000000, tarn := 0x13F },  -- OWNER
  { off := 0x18, rc := 0xFFFF },  -- ERR_CNT
  { off := 0x1C, wo := 0xFFFFFFFF },  -- SEAL
  { off := 0x40, perPath := true, rw := 0x1FF },  -- L_SEL
  { off := 0x44, cnt := 6, rw := 0xFFFFFFFF, tarn := 0xFFFFFFFF },  -- LCFG
  { off := 0x5C, wo := 0xF },  -- L_CTRL
  { off := 0x60, ro := 0xFFFF7FFF, tarn := 0x8 },  -- L_STAT
  { off := 0x64, ro := 0xFFFFFFFF },  -- L_OUT
  { off := 0x68, stride := 0x8, wide := true, ro := 0xFFFFFFFF },  -- L_LAST_AT
  { off := 0x70, perPath := true, rw := 0x10FFF },  -- S_SEL
  { off := 0x74, cnt := 5, rw := 0xFFFFFFFF, tarn := 0xFFFFFFFF },  -- C
  { off := 0x88, rw := 0x1FFFFFF, tarn := 0x1FFFFFF },  -- SHIFTS
  { off := 0x8C, ro := 0x1FF0FFF },  -- BAD
  { off := 0x90, rc := 0xFFFF },  -- OVR_CNT
  { off := 0x94, rc := 0xFFFF },  -- MISS_CNT
  { off := 0x98, rc := 0xFFFF },  -- MISMATCH_CNT
  { off := 0x9C, ro := 0x1FF },  -- LAST_HOLD
  { off := 0x800, cnt := 64, ro := 0xFFFFFFFF }]  -- LSTATE

/-- Registers of the RED page(s), from offset 0x004 up. -/
def regsRED : List RegDef := [
  { off := 0x4, ro := 0x3, reset := 0x1 },  -- CTRL
  { off := 0x8, ro := 0x1F07 },  -- STAT
  { off := 0xC, w1c := 0x1FF01 },  -- EVT
  { off := 0x10, rw := 0x1FF01 },  -- EVT_EN
  { off := 0x14, rws := 0x13F, ro := 0x80000000, tarn := 0x13F },  -- OWNER
  { off := 0x18, rc := 0xFFFF },  -- ERR_CNT
  { off := 0x1C, wo := 0xFFFFFFFF },  -- SEAL
  { off := 0x40, rw := 0x1FF0F01, tarn := 0x1FF0F01, fs := 0x640200 },  -- AUTH
  { off := 0x44, ro := 0x3 },  -- ROLE
  { off := 0x48, ro := 0xF13 },  -- LEASE
  { off := 0x4C, stride := 0x8, wide := true, ro := 0xFFFFFFFF },  -- EXPIRY
  { off := 0x54, stride := 0x8, wide := true, ro := 0xFFFFFFFF },  -- CLAIM_AT
  { off := 0x5C, stride := 0x8, wide := true, ro := 0xFFFFFFFF },  -- GAP_FROM
  { off := 0x64, ro := 0xFFFF0F },  -- LAST_SW
  { off := 0x68, rc := 0xFFFF },  -- SW_CNT
  { off := 0x6C, ro := 0xF07 },  -- MISMATCH
  { off := 0x70, stride := 0x8, wide := true, ro := 0xFFFFFFFF },  -- MISMATCH_AT
  { off := 0x78, rc := 0xFFFF },  -- MISMATCH_CNT
  { off := 0x7C, stride := 0x8, wide := true, rw := 0xFFFFFFFF },  -- DRILL_AT
  { off := 0x84, wo := 0x3, ro := 0x700 },  -- DRILL_CTRL
  { off := 0x88, ro := 0x3 },  -- SYNC
  { off := 0x8C, rc := 0xFFFF },  -- SYNC_ERR_CNT
  { off := 0x90, ro := 0xFF07 },  -- RESYNC
  { off := 0x94, rc := 0xFFFF }]  -- RESYNC_CNT

/-- Registers of the SWF page(s), from offset 0x004 up. -/
def regsSWF : List RegDef := [
  { off := 0x4, ro := 0x3, reset := 0x1 },  -- CTRL
  { off := 0x8, ro := 0x107 },  -- STAT
  { off := 0xC, w1c := 0x3F01 },  -- EVT
  { off := 0x10, rw := 0x3F01 },  -- EVT_EN
  { off := 0x14, rws := 0x13F, ro := 0x80000000, tarn := 0x13F },  -- OWNER
  { off := 0x18, rc := 0xFFFF },  -- ERR_CNT
  { off := 0x1C, wo := 0xFFFFFFFF },  -- SEAL
  { off := 0x40, rw := 0xFFFF0001, tarn := 0xFFFF0001, fs := 0x12C0000 },  -- CFG
  { off := 0x44, rw := 0x10FFF, tarn := 0x10FFF, fs := 0x10FFE },  -- MGMT
  { off := 0x48, rw := 0xFFFFFFFF, tarn := 0xFFFFFFFF },  -- IP_A
  { off := 0x4C, rw := 0xFFFFFFFF, tarn := 0xFFFFFFFF },  -- IP_B
  { off := 0x50, rw := 0xFFFFFFFF, tarn := 0xFFFFFFFF },  -- IP_MASK
  { off := 0x54, rw := 0xFFFFFFFF, tarn := 0xFFFFFFFF },  -- IP_GW
  { off := 0x58, ro := 0x7FFF },  -- FDB_USED
  { off := 0x5C, perPath := true, rw := 0x7F },  -- CNT_SEL
  { off := 0x60, cnt := 8, rc := 0xFFFF },  -- CNT
  { off := 0x400, cnt := 128, rw := 0x7F, tarn := 0x7F },  -- PORT_CFG
  { off := 0x600, cnt := 128, ro := 0x1F }]  -- PORT_STAT

/-- Registers of the UPL page(s), from offset 0x004 up. -/
def regsUPL : List RegDef := [
  { off := 0x4, rw := 0x1, ro := 0x2, tarn := 0x1, fs := 0x1 },  -- CTRL
  { off := 0x8, ro := 0x3F07 },  -- STAT
  { off := 0xC, w1c := 0x1F01 },  -- EVT
  { off := 0x10, rw := 0x1F01 },  -- EVT_EN
  { off := 0x14, rws := 0x13F, ro := 0x80000000, tarn := 0x13F },  -- OWNER
  { off := 0x18, rc := 0xFFFF },  -- ERR_CNT
  { off := 0x1C, wo := 0xFFFFFFFF },  -- SEAL
  { off := 0x40, rw := 0xFF, tarn := 0xFF, fs := 0x4 },  -- CFG
  { off := 0x44, rw := 0xFFFFFFFF, tarn := 0xFFFFFFFF, fs := 0x1 },  -- TAGS_LO
  { off := 0x48, rw := 0x7FFFFFFF, tarn := 0x7FFFFFFF },  -- TAGS_HI
  { off := 0x4C, rc := 0xFFFF },  -- PAUSE_CNT
  { off := 0x50, rc := 0xFFFF },  -- PAUSE_MAX
  { off := 0x54, rc := 0xFFFF },  -- PAUSE_BROKEN
  { off := 0x58, cnt := 6, rc := 0xFFFF }]  -- CNT

/-- Registers of the WAKE page(s), from offset 0x004 up. -/
def regsWAKE : List RegDef := [
  { off := 0x4, ro := 0x3, reset := 0x1 },  -- CTRL
  { off := 0x8, ro := 0x7 },  -- STAT
  { off := 0xC, w1c := 0x301 },  -- EVT
  { off := 0x10, rw := 0x301 },  -- EVT_EN
  { off := 0x14, rws := 0x13F, ro := 0x80000000, tarn := 0x13F },  -- OWNER
  { off := 0x18, rc := 0xFFFF },  -- ERR_CNT
  { off := 0x1C, wo := 0xFFFFFFFF },  -- SEAL
  { off := 0x40, w1c := 0xFFFFFFFF },  -- HIT
  { off := 0x44, rc := 0xFFFF },  -- WOKEN_CNT
  { off := 0x100, cnt := 32, stride := 0x40, rw := 0xFFFFFFFF, tarn := 0xFFFFFFFF },  -- MASK_0
  { off := 0x104, cnt := 32, stride := 0x40, rw := 0xFFFFFFFF, tarn := 0xFFFFFFFF },  -- MASK_1
  { off := 0x108, cnt := 32, stride := 0x40, rw := 0xFFFFFFFF, tarn := 0xFFFFFFFF },  -- MASK_2
  { off := 0x10C, cnt := 32, stride := 0x40, rw := 0xFFFFFFFF, tarn := 0xFFFFFFFF },  -- MASK_3
  { off := 0x110, cnt := 32, stride := 0x40, rw := 0xFFFFFFFF, tarn := 0xFFFFFFFF },  -- CHECK
  { off := 0x114, cnt := 32, stride := 0x40, rw := 0xFFFFFFFF, tarn := 0xFFFFFFFF },  -- PORTS_0
  { off := 0x118, cnt := 32, stride := 0x40, rw := 0xFFFFFFFF, tarn := 0xFFFFFFFF },  -- PORTS_1
  { off := 0x11C, cnt := 32, stride := 0x40, rw := 0xFFFFFFFF, tarn := 0xFFFFFFFF },  -- PORTS_2
  { off := 0x120, cnt := 32, stride := 0x40, rw := 0xFFFFFFFF, tarn := 0xFFFFFFFF },  -- PORTS_3
  { off := 0x124, cnt := 32, stride := 0x40, rw := 0x3F7F, tarn := 0x3F7F },  -- CFG
  { off := 0x128, cnt := 32, stride := 0x40, rc := 0xFFFF }]  -- HITS

/-- Registers of the CAN page(s), from offset 0x004 up. -/
def regsCAN : List RegDef := [
  { off := 0x4, rw := 0x1, wo := 0x100, ro := 0x2, tarn := 0x1 },  -- CTRL
  { off := 0x8, ro := 0x3F07 },  -- STAT
  { off := 0xC, w1c := 0x1FF01 },  -- EVT
  { off := 0x10, rw := 0x1FF01 },  -- EVT_EN
  { off := 0x14, rws := 0x13F, ro := 0x80000000, tarn := 0x13F },  -- OWNER
  { off := 0x18, rc := 0xFFFF },  -- ERR_CNT
  { off := 0x1C, wo := 0xFFFFFFFF },  -- SEAL
  { off := 0x40, rw := 0x3F0F, tarn := 0x3F0F, fs := 0xA },  -- CFG
  { off := 0x44, rw := 0x7FFFFFF, tarn := 0x7FFFFFF, fs := 0xF1E7C0 },  -- NBT
  { off := 0x48, rw := 0x7F03FFFF, tarn := 0x7F03FFFF, fs := 0xF0111A0 },  -- DBT
  { off := 0x4C, rw := 0xF, tarn := 0xF, fs := 0x3 },  -- TXO_CTRL
  { off := 0x50, cnt := 4, rw := 0xFFFFFFFF, tarn := 0xFFFFFFFF, fs := 0xFFFFFFFF, fsFirst := true },  -- DIR
  { off := 0x60, ro := 0x3FF01FF },  -- ERR
  { off := 0x64, ro := 0xF },  -- LEC
  { off := 0x68, ro := 0xFF007F },  -- RX_HEAD
  { off := 0x6C, ro := 0xFF },  -- RECOV
  { off := 0x70, cnt := 4, w1c := 0xFFFFFFFF },  -- RX_FULL
  { off := 0x80, ro := 0xFF },  -- TX_PEND
  { off := 0x84, rc := 0xFFFF },  -- RX_CNT
  { off := 0x88, rc := 0xFFFF },  -- RX_OVF
  { off := 0x8C, rc := 0xFFFF },  -- TX_OK
  { off := 0x90, rc := 0xFFFF },  -- EXHAUST_CNT
  { off := 0x94, rc := 0xFFFF },  -- BUSOFF_CNT
  { off := 0x98, rc := 0xFFFF },  -- TX_FULL_CNT
  { off := 0x9C, rc := 0xFFFF }]  -- ERRF_CNT

/-- Registers of the KEY page(s), from offset 0x004 up. -/
def regsKEY : List RegDef := [
  { off := 0x4, ro := 0x3, reset := 0x1 },  -- CTRL
  { off := 0x8, ro := 0xF07 },  -- STAT
  { off := 0xC, w1c := 0xF01 },  -- EVT
  { off := 0x10, rw := 0xF01 },  -- EVT_EN
  { off := 0x14, rws := 0x13F, ro := 0x80000000, tarn := 0x13F },  -- OWNER
  { off := 0x18, rc := 0xFFFF },  -- ERR_CNT
  { off := 0x1C, wo := 0xFFFFFFFF },  -- SEAL
  { off := 0x40, ro := 0x7D1FFF },  -- ROOT
  { off := 0x44, perPath := true, rw := 0xFF },  -- K_SEL
  { off := 0x48, perPath := true, rw := 0xFF3FFF0F },  -- K_ARG
  { off := 0x4C, perPath := true, rw := 0x3FF },  -- K_USE
  { off := 0x50, perPath := true, wo := 0xF },  -- K_OP
  { off := 0x54, perPath := true, ro := 0xFFFF },  -- K_RES
  { off := 0x58, perPath := true, ro := 0xFFFFFF },  -- K_KCV
  { off := 0x5C, rc := 0xFFFF },  -- INVAL_CNT
  { off := 0x60, ro := 0x1FF },  -- USED
  { off := 0x64, wo := 0xFFFFFFFF },  -- ZERO
  { off := 0x70, cnt := 4, perPath := true, ro := 0xFFFFFFFF },  -- K_DESC
  { off := 0x80, cnt := 8, perPath := true, rw := 0xFFFFFFFF },  -- LABEL
  { off := 0x100, cnt := 16, perPath := true, ro := 0xFFFFFFFF },  -- PUB
  { off := 0x200, cnt := 64, perPath := true, wo := 0xFFFFFFFF }]  -- IMP

/-- Registers of the CRYPTO page(s), from offset 0x004 up. -/
def regsCRYPTO : List RegDef := [
  { off := 0x4, ro := 0x3, reset := 0x1 },  -- CTRL
  { off := 0x8, ro := 0x7 },  -- STAT
  { off := 0xC, w1c := 0x301 },  -- EVT
  { off := 0x10, rw := 0x301 },  -- EVT_EN
  { off := 0x14, rws := 0x13F, ro := 0x80000000, tarn := 0x13F },  -- OWNER
  { off := 0x18, rc := 0xFFFF },  -- ERR_CNT
  { off := 0x1C, wo := 0xFFFFFFFF },  -- SEAL
  { off := 0x40, rw := 0x1FF, tarn := 0x1FF, fs := 0x1 },  -- TLS
  { off := 0x44, rw := 0xFF, tarn := 0xFF, fs := 0x1 },  -- ATT
  { off := 0x48, perPath := true, wo := 0x1FF0F },  -- C_OP
  { off := 0x4C, perPath := true, rw := 0x7FF },  -- C_LEN
  { off := 0x54, perPath := true, ro := 0x7FF00FF },  -- C_RES
  { off := 0x58, rc := 0xFFFF },  -- HS_FAIL_CNT
  { off := 0x5C, rc := 0xFFFF },  -- OP_CNT
  { off := 0x400, cnt := 256, perPath := true, wo := 0xFFFFFFFF },  -- IN
  { off := 0x800, cnt := 256, perPath := true, ro := 0xFFFFFFFF }]  -- OUT

/-- Registers of the BOOT page(s), from offset 0x004 up. -/
def regsBOOT : List RegDef := [
  { off := 0x4, ro := 0x3, reset := 0x1 },  -- CTRL
  { off := 0x8, ro := 0x7 },  -- STAT
  { off := 0xC, w1c := 0x301 },  -- EVT
  { off := 0x10, rw := 0x301 },  -- EVT_EN
  { off := 0x14, rws := 0x13F, ro := 0x80000000, tarn := 0x13F },  -- OWNER
  { off := 0x18, rc := 0xFFFF },  -- ERR_CNT
  { off := 0x1C, wo := 0xFFFFFFFF },  -- SEAL
  { off := 0x40, cnt := 2, ro := 0xFFFF07 },  -- FW
  { off := 0x48, wo := 0x7 },  -- FW_CTRL
  { off := 0x4C, ro := 0x3 },  -- FW_STAT
  { off := 0x50, ro := 0xF7F },  -- FUSE
  { off := 0x54, rw := 0xFF, tarn := 0xFF },  -- PROG_KEY
  { off := 0x58, wo := 0x107 },  -- IMG_CTRL
  { off := 0x5C, wo := 0xFFFFFFFF },  -- IMG_DATA
  { off := 0x60, ro := 0xFFF },  -- IMG_STAT
  { off := 0x64, ro := 0x1FFFFFF },  -- IMG_LEN
  { off := 0x6C, cnt := 2, ro := 0xFFFFFFFF }]  -- FWVER

/-- Registers of the TARN page(s), from offset 0x004 up. -/
def regsTARN : List RegDef := [
  { off := 0x4, wo := 0x100, ro := 0x3, reset := 0x1 },  -- CTRL
  { off := 0x8, ro := 0x707 },  -- STAT
  { off := 0xC, w1c := 0xF01 },  -- EVT
  { off := 0x10, rw := 0xF01 },  -- EVT_EN
  { off := 0x14, rws := 0x13F, ro := 0x80000000, tarn := 0x13F },  -- OWNER
  { off := 0x18, rc := 0xFFFF },  -- ERR_CNT
  { off := 0x1C, wo := 0xFFFFFFFF },  -- SEAL
  { off := 0x40, ro := 0x7FFF },  -- DIRTY
  { off := 0x44, stride := 0x8, wide := true, ro := 0xFFFFFFFF, tarn := 0xFFFFFFFF },  -- STORE_SEQ
  { off := 0x4C, stride := 0x8, wide := true, ro := 0xFFFFFFFF },  -- LAST_STORE
  { off := 0x54, ro := 0xFFFF },  -- STORE_TIME
  { off := 0x58, rc := 0xFFFF },  -- STORE_CNT
  { off := 0x5C, ro := 0x3FFF7FFF },  -- BAD_PAGES
  { off := 0x60, ro := 0x7F7F7F7F },  -- LOCKS
  { off := 0x64, perPath := true, rw := 0xF, wo := 0x300, ro := 0xF3000 },  -- PW_CTRL
  { off := 0x68, stride := 0x8, wide := true, perPath := true, wo := 0xFFFFFFFF },  -- PWD
  { off := 0x70, perPath := true, rw := 0x7FFF },  -- WIN_BASE
  { off := 0x74, perPath := true, wo := 0x3 },  -- H_CTRL
  { off := 0x78, perPath := true, ro := 0x1FFFF13 },  -- H_STAT
  { off := 0x800, cnt := 512, rw := 0xFFFFFFFF }]  -- WIN

/-- Registers of the EVR page(s), from offset 0x004 up. -/
def regsEVR : List RegDef := [
  { off := 0x4, wo := 0x100, ro := 0x3, reset := 0x1 },  -- CTRL
  { off := 0x8, ro := 0x707, tarn := 0x300 },  -- STAT
  { off := 0xC, w1c := 0xF01 },  -- EVT
  { off := 0x10, rw := 0xF01 },  -- EVT_EN
  { off := 0x14, rws := 0x13F, ro := 0x80000000, tarn := 0x13F },  -- OWNER
  { off := 0x18, rc := 0xFFFF },  -- ERR_CNT
  { off := 0x1C, wo := 0xFFFFFFFF },  -- SEAL
  { off := 0x40, rw := 0xFF, tarn := 0xFF, fs := 0x3C },  -- CFG
  { off := 0x44, ro := 0x7FFFF },  -- FILL
  { off := 0x48, ro := 0xFFFFFFFF, tarn := 0xFFFFFFFF },  -- SEQ_NEXT
  { off := 0x4C, ro := 0xFFFFFFFF, tarn := 0xFFFFFFFF },  -- PAGE_NO
  { off := 0x50, ro := 0xFFFFFFFF, tarn := 0xFFFFFFFF },  -- OLDEST
  { off := 0x54, rc := 0xFFFF },  -- LOST_CNT
  { off := 0x58, rc := 0xFFFF },  -- FLUSH_CNT
  { off := 0x60, perPath := true, rw := 0x100, wo := 0x7 },  -- RD_CTRL
  { off := 0x64, perPath := true, rw := 0xFFFFFFFF },  -- RD_ARG
  { off := 0x68, perPath := true, ro := 0x1FFF0007 },  -- RD_STAT
  { off := 0x6C, perPath := true, ro := 0xFFFFFFFF },  -- RD_PAGE
  { off := 0x70, perPath := true, rw := 0xFFF, wo := 0x10000 },  -- APP_CTRL
  { off := 0x80, cnt := 8, perPath := true, ro := 0xFFFFFFFF },  -- RD_DIG
  { off := 0x400, cnt := 64, perPath := true, wo := 0xFFFFFFFF },  -- APP
  { off := 0x800, cnt := 512, perPath := true, ro := 0xFFFFFFFF }]  -- REC

/-- Registers of the RTC page(s), from offset 0x004 up. -/
def regsRTC : List RegDef := [
  { off := 0x4, wo := 0x100, ro := 0x3, reset := 0x1 },  -- CTRL
  { off := 0x8, ro := 0x3F07, backup := 0xC00 },  -- STAT
  { off := 0xC, w1c := 0x7FFFF01, backup := 0xFFFF00 },  -- EVT
  { off := 0x10, rw := 0x7FFFF01 },  -- EVT_EN
  { off := 0x14, rws := 0x13F, ro := 0x80000000, tarn := 0x13F, fs := 0x100 },  -- OWNER
  { off := 0x18, rc := 0xFFFF },  -- ERR_CNT
  { off := 0x1C, wo := 0xFFFFFFFF },  -- SEAL
  { off := 0x40, ro := 0x7FFF, backup := 0x7FFF },  -- SUBSEC
  { off := 0x44, ro := 0x1F3F3F, backup := 0x1F3F3F },  -- TIME
  { off := 0x48, ro := 0x7FF0F1F, backup := 0x7FF0F1F },  -- DATE
  { off := 0x4C, ro := 0xFFFFFFFF, backup := 0xFFFFFFFF },  -- SECS
  { off := 0x50, rw := 0xFFFFFFFF },  -- SET_TIME
  { off := 0x54, rw := 0xFFFFFFFF },  -- SET_DATE
  { off := 0x58, wo := 0xFFFF },  -- SHIFT
  { off := 0x5C, ro := 0xFFFFFFFF },  -- DIFF
  { off := 0x60, rw := 0xFF, ro := 0x100, backup := 0xFF, reset := 0xA },  -- PWRON
  { off := 0x80, cnt := 14, stride := 0x20, rw := 0x3F3F3F13, backup := 0x3F3F3F13 },  -- ALM_CFG
  { off := 0x84, cnt := 14, stride := 0x20, wo := 0xF },  -- ALM_CTRL
  { off := 0x88, cnt := 14, stride := 0x20, w1c := 0x3C, ro := 0x3, backup := 0x3F },  -- ALM_STAT
  { off := 0x8C, cnt := 14, stride := 0x20, rw := 0x1F3F3F, backup := 0x1F3F3F },  -- C0_TIME
  { off := 0x90, cnt := 14, stride := 0x20, rw := 0x7FFF0F1F, backup := 0x7FFF0F1F, reset := 0x7F000000 },  -- C0_DATE
  { off := 0x94, cnt := 14, stride := 0x20, rw := 0x1F3F3F, backup := 0x1F3F3F },  -- C1_TIME
  { off := 0x98, cnt := 14, stride := 0x20, rw := 0x7FFF0F1F, backup := 0x7FFF0F1F, reset := 0x7F000000 },  -- C1_DATE
  { off := 0x9C, cnt := 14, stride := 0x20, ro := 0xFFFFFFFF, backup := 0xFFFFFFFF, reset := 0xFFFFFFFF },  -- LAST_0
  { off := 0x240, cnt := 14, ro := 0xFFFFFFFF, backup := 0xFFFFFFFF, reset := 0xFFFFFFFF },  -- LAST_1
  { off := 0x300, cnt := 2, stride := 0x10, rw := 0x3, backup := 0x3 },  -- PER_CFG
  { off := 0x304, cnt := 2, stride := 0x10, rw := 0x1FFFFFF, backup := 0x1FFFFFF, reset := 0x100 },  -- PER_PERIOD
  { off := 0x308, cnt := 2, stride := 0x10, ro := 0x1FFFFFF }]  -- PER_REMAIN

/-- Registers of the MEM page(s), from offset 0x004 up. -/
def regsMEM : List RegDef := [
  { off := 0x4, ro := 0x3, reset := 0x1 },  -- CTRL
  { off := 0x8, ro := 0x107 },  -- STAT
  { off := 0xC, w1c := 0x3F01 },  -- EVT
  { off := 0x10, rw := 0x3F01 },  -- EVT_EN
  { off := 0x14, rws := 0x13F, ro := 0x80000000, tarn := 0x13F },  -- OWNER
  { off := 0x18, rc := 0xFFFF },  -- ERR_CNT
  { off := 0x1C, wo := 0xFFFFFFFF },  -- SEAL
  { off := 0x40, perPath := true, rw := 0x3F },  -- SEL
  { off := 0x44, rw := 0x3FFFFFF },  -- B_CFG
  { off := 0x48, ro := 0xF1F, reset := 0x2 },  -- B_STAT
  { off := 0x4C, rc := 0xFFFF },  -- CE_CNT
  { off := 0x50, rc := 0xFFFF },  -- UE_CNT
  { off := 0x54, rc := 0xFFFF },  -- COLLIDE_CNT
  { off := 0x58, rc := 0xFFFF },  -- REFUSED_CNT
  { off := 0x5C, ro := 0xF1FFFF3F },  -- LAST_ERR
  { off := 0x60, cnt := 10, rc := 0xFFFF },  -- CONF
  { off := 0xA0, cnt := 4, ro := 0xFFFFFFFF, reset := 0xAAAAAAAA }]  -- PSTATE

/-- Registers of the BKG page(s), from offset 0x004 up. -/
def regsBKG : List RegDef := [
  { off := 0x4, ro := 0x3, reset := 0x1 },  -- CTRL
  { off := 0x8, ro := 0x7 },  -- STAT
  { off := 0xC, w1c := 0x101 },  -- EVT
  { off := 0x10, rw := 0x101 },  -- EVT_EN
  { off := 0x14, rws := 0x13F, ro := 0x80000000, tarn := 0x13F },  -- OWNER
  { off := 0x18, rc := 0xFFFF },  -- ERR_CNT
  { off := 0x1C, wo := 0xFFFFFFFF },  -- SEAL
  { off := 0x40, rw := 0x3F, tarn := 0x3F, fs := 0x3F },  -- CFG
  { off := 0x44, wo := 0x3F },  -- RUN
  { off := 0x48, ro := 0x3F },  -- DEFER
  { off := 0x4C, rc := 0xFFFF },  -- DEFER_CNT
  { off := 0x50, ro := 0xFFFF },  -- SCRUB_AGE
  { off := 0x54, ro := 0x3FFF003F },  -- TEST_POS
  { off := 0x58, ro := 0xFFFF },  -- TEST_PASS
  { off := 0x5C, ro := 0xFFFF },  -- LEAK_AGE
  { off := 0x60, ro := 0xFFFF }]  -- RES_USED

/-- Registers of the FAULT page(s), from offset 0x004 up. -/
def regsFAULT : List RegDef := [
  { off := 0x4, ro := 0x3, reset := 0x1 },  -- CTRL
  { off := 0x8, ro := 0x1F07 },  -- STAT
  { off := 0xC, w1c := 0xF01 },  -- EVT
  { off := 0x10, rw := 0xF01 },  -- EVT_EN
  { off := 0x14, rws := 0x13F, ro := 0x80000000, tarn := 0x13F },  -- OWNER
  { off := 0x18, rc := 0xFFFF },  -- ERR_CNT
  { off := 0x1C, wo := 0xFFFFFFFF },  -- SEAL
  { off := 0x40, ro := 0x3FF },  -- PLANE_FLT
  { off := 0x44, ro := 0x1FFF },  -- FIELD_FLT
  { off := 0x48, ro := 0x7F },  -- WARN
  { off := 0x4C, rw := 0x7, wo := 0x100, tarn := 0x7, fs := 0x3 },  -- RELAY
  { off := 0x50, rw := 0x10000, wo := 0xFF07, ro := 0x3000000, tarn := 0x10000, fs := 0x10000 },  -- RESTART
  { off := 0x54, ro := 0xFFFF00FF, backup := 0xF0 },  -- START
  { off := 0x58, stride := 0x8, wide := true, ro := 0xFFFFFFFF },  -- LAST_AT
  { off := 0x60, rc := 0xFFFF },  -- FLT_CNT
  { off := 0x64, ro := 0x1FFFF, tarn := 0x1FFFF },  -- PF
  { off := 0x68, ro := 0xFFFF },  -- HOLDUP
  { off := 0x6C, ro := 0xFFFF, tarn := 0xFFFF },  -- WDOG_CNT
  { off := 0x70, ro := 0x3F3F },  -- FANS
  { off := 0x74, ro := 0xFFFF }]  -- TEMP

/-! ## Byte addresses of the registers that the machine itself reads or writes (R16) -/

namespace Reg

/-- First page of SYS. -/
abbrev SYS_PAGE : Nat := 0x0
abbrev SYS_CTRL : Nat := 0x4
abbrev SYS_STAT : Nat := 0x8
abbrev SYS_EVT : Nat := 0xC
abbrev SYS_EVT_EN : Nat := 0x10
abbrev SYS_OWNER : Nat := 0x14
abbrev SYS_ERR_CNT : Nat := 0x18
abbrev SYS_SEAL : Nat := 0x1C
abbrev SYS_EVT_SUM (i : Nat) : Nat := 0x40 + 0x4 * i
abbrev SYS_PLANE : Nat := 0x4C
abbrev SYS_CFG_CTRL : Nat := 0x50
abbrev SYS_CFG_STAT : Nat := 0x54
abbrev SYS_CFG_EPOCH : Nat := 0x58
abbrev SYS_NOW : Nat := 0x60
abbrev SYS_CFG_AT : Nat := 0x68
abbrev SYS_UNMAP_CNT : Nat := 0x70

/-- First page of ACCESS. -/
abbrev ACCESS_PAGE : Nat := 0x1
abbrev ACCESS_CTRL : Nat := 0x1004
abbrev ACCESS_STAT : Nat := 0x1008
abbrev ACCESS_EVT : Nat := 0x100C
abbrev ACCESS_EVT_EN : Nat := 0x1010
abbrev ACCESS_OWNER : Nat := 0x1014
abbrev ACCESS_ERR_CNT : Nat := 0x1018
abbrev ACCESS_SEAL : Nat := 0x101C
abbrev ACCESS_HRP_ALLOW_LO : Nat := 0x1040
abbrev ACCESS_HRP_ALLOW_HI : Nat := 0x1044
abbrev ACCESS_REM_ALLOW_LO : Nat := 0x1048
abbrev ACCESS_REM_ALLOW_HI : Nat := 0x104C
abbrev ACCESS_VIOL_CNT : Nat := 0x1050
abbrev ACCESS_LAST_VIOL : Nat := 0x1054
abbrev ACCESS_LAST_VIOL_ADDR : Nat := 0x1058
abbrev ACCESS_LAST_VIOL_AT : Nat := 0x105C
abbrev ACCESS_MOARNO : Nat := 0x1064
abbrev ACCESS_SESS (i : Nat) : Nat := 0x1080 + 0x4 * i

/-- First page of TENANT. -/
abbrev TENANT_PAGE : Nat := 0x2
abbrev TENANT_CTRL : Nat := 0x2004
abbrev TENANT_STAT : Nat := 0x2008
abbrev TENANT_EVT : Nat := 0x200C
abbrev TENANT_EVT_EN : Nat := 0x2010
abbrev TENANT_OWNER : Nat := 0x2014
abbrev TENANT_ERR_CNT : Nat := 0x2018
abbrev TENANT_SEAL : Nat := 0x201C
abbrev TENANT_USE_SEL : Nat := 0x2040
abbrev TENANT_USE_0 : Nat := 0x2044
abbrev TENANT_USE_1 : Nat := 0x2048
abbrev TENANT_USE_2 : Nat := 0x204C
abbrev TENANT_USE_3 : Nat := 0x2050
abbrev TENANT_T (i : Nat) : Nat := 0x2100 + 0x4 * i

/-- First page of MPE. -/
abbrev MPE_PAGE : Nat := 0x4
abbrev MPE_CTRL : Nat := 0x4004
abbrev MPE_STAT : Nat := 0x4008
abbrev MPE_EVT : Nat := 0x400C
abbrev MPE_EVT_EN : Nat := 0x4010
abbrev MPE_OWNER : Nat := 0x4014
abbrev MPE_ERR_CNT : Nat := 0x4018
abbrev MPE_SEAL : Nat := 0x401C
abbrev MPE_CFG : Nat := 0x4040
abbrev MPE_PHASE_OFS : Nat := 0x4044
abbrev MPE_FREQ : Nat := 0x4048
abbrev MPE_PERIOD : Nat := 0x404C
abbrev MPE_PHASE_ERR : Nat := 0x4050
abbrev MPE_SLW_CNT : Nat := 0x4054
abbrev MPE_FLY_CNT : Nat := 0x4058
abbrev MPE_STEER_CNT : Nat := 0x405C
abbrev MPE_TT : Nat := 0x4060
abbrev MPE_SLW_AT : Nat := 0x4068
abbrev MPE_OK_AT : Nat := 0x4070

/-- First page of PTP. -/
abbrev PTP_PAGE : Nat := 0x5
abbrev PTP_CTRL : Nat := 0x5004
abbrev PTP_STAT : Nat := 0x5008
abbrev PTP_EVT : Nat := 0x500C
abbrev PTP_EVT_EN : Nat := 0x5010
abbrev PTP_OWNER : Nat := 0x5014
abbrev PTP_ERR_CNT : Nat := 0x5018
abbrev PTP_SEAL : Nat := 0x501C
abbrev PTP_CFG : Nat := 0x5040
abbrev PTP_CYC_CFG : Nat := 0x5044
abbrev PTP_BUILDING : Nat := 0x5048
abbrev PTP_ANN_GROUP : Nat := 0x504C
abbrev PTP_ANN_PORT : Nat := 0x5050
abbrev PTP_SOURCE_ID : Nat := 0x5054
abbrev PTP_FOLLOW_ID : Nat := 0x5058
abbrev PTP_OFFSET : Nat := 0x5060
abbrev PTP_PATH : Nat := 0x5064
abbrev PTP_TRIM : Nat := 0x5068
abbrev PTP_RESID : Nat := 0x506C
abbrev PTP_CYC_DIFF : Nat := 0x5070
abbrev PTP_CYC_CTRL : Nat := 0x5074
abbrev PTP_ANN_RX : Nat := 0x5078
abbrev PTP_ANN_BAD : Nat := 0x507C

/-- First page of WEIR. -/
abbrev WEIR_PAGE : Nat := 0x8
abbrev WEIR_CTRL : Nat := 0x8004
abbrev WEIR_STAT : Nat := 0x8008
abbrev WEIR_EVT : Nat := 0x800C
abbrev WEIR_EVT_EN : Nat := 0x8010
abbrev WEIR_OWNER : Nat := 0x8014
abbrev WEIR_ERR_CNT : Nat := 0x8018
abbrev WEIR_SEAL : Nat := 0x801C
abbrev WEIR_CFG : Nat := 0x8040
abbrev WEIR_GAP : Nat := 0x8044
abbrev WEIR_UPL_ALLOW (i : Nat) : Nat := 0x8048 + 0x4 * i
abbrev WEIR_CAN_BUDGET (i : Nat) : Nat := 0x8058 + 0x4 * i
abbrev WEIR_ACC_CNT : Nat := 0x8078
abbrev WEIR_REF_A : Nat := 0x807C
abbrev WEIR_REF_B : Nat := 0x8080
abbrev WEIR_REF_C : Nat := 0x8084
abbrev WEIR_BROKEN_CNT : Nat := 0x8088
abbrev WEIR_INFLIGHT : Nat := 0x808C

/-- First page of CMD. -/
abbrev CMD_PAGE : Nat := 0x9
abbrev CMD_CTRL : Nat := 0x9004
abbrev CMD_STAT : Nat := 0x9008
abbrev CMD_EVT : Nat := 0x900C
abbrev CMD_EVT_EN : Nat := 0x9010
abbrev CMD_OWNER : Nat := 0x9014
abbrev CMD_ERR_CNT : Nat := 0x9018
abbrev CMD_SEAL : Nat := 0x901C
abbrev CMD_SUBMIT (i : Nat) : Nat := 0x9040 + 0x4 * i
abbrev CMD_RESULT : Nat := 0x9060
abbrev CMD_SEQ : Nat := 0x9064
abbrev CMD_LAUNCH : Nat := 0x9068
abbrev CMD_ABORT : Nat := 0x9070
abbrev CMD_ABORT_RESULT : Nat := 0x9074
abbrev CMD_SEL : Nat := 0x9078
abbrev CMD_SEL_SEQ : Nat := 0x907C
abbrev CMD_SEL_LAUNCH : Nat := 0x9080
abbrev CMD_SEL_DEADLINE : Nat := 0x9088
abbrev CMD_SEL_DONE_AT : Nat := 0x9090
abbrev CMD_Q_SEL : Nat := 0x9098
abbrev CMD_Q_RES : Nat := 0x909C
abbrev CMD_DONE (i : Nat) : Nat := 0x90A0 + 0x4 * i
abbrev CMD_Q_CAP : Nat := 0x90C0
abbrev CMD_SLOT (i : Nat) : Nat := 0x9400 + 0x4 * i

/-- First page of LFAB. -/
abbrev LFAB_PAGE : Nat := 0xC
abbrev LFAB_CTRL : Nat := 0xC004
abbrev LFAB_STAT : Nat := 0xC008
abbrev LFAB_EVT : Nat := 0xC00C
abbrev LFAB_EVT_EN : Nat := 0xC010
abbrev LFAB_OWNER : Nat := 0xC014
abbrev LFAB_ERR_CNT : Nat := 0xC018
abbrev LFAB_SEAL : Nat := 0xC01C
abbrev LFAB_LINK : Nat := 0xC040
abbrev LFAB_NAK (i : Nat) : Nat := 0xC044 + 0x4 * i
abbrev LFAB_CRC_RX (i : Nat) : Nat := 0xC04C + 0x4 * i
abbrev LFAB_RESEND2_CNT : Nat := 0xC054
abbrev LFAB_LOST_CNT : Nat := 0xC058
abbrev LFAB_REJECT_CNT : Nat := 0xC05C
abbrev LFAB_LOAD (i : Nat) : Nat := 0xC060 + 0x4 * i
abbrev LFAB_INJECT : Nat := 0xC068

/-- First page of PMAP. -/
abbrev PMAP_PAGE : Nat := 0xB
abbrev PMAP_CTRL : Nat := 0xB004
abbrev PMAP_STAT : Nat := 0xB008
abbrev PMAP_EVT : Nat := 0xB00C
abbrev PMAP_EVT_EN : Nat := 0xB010
abbrev PMAP_OWNER : Nat := 0xB014
abbrev PMAP_ERR_CNT : Nat := 0xB018
abbrev PMAP_SEAL : Nat := 0xB01C
abbrev PMAP_COUNT : Nat := 0xB040
abbrev PMAP_BAD_IDX : Nat := 0xB044
abbrev PMAP_BAD_CNT : Nat := 0xB048
abbrev PMAP_UNC_CNT : Nat := 0xB04C
abbrev PMAP_LAST_BAD : Nat := 0xB050
abbrev PMAP_QUAL (i : Nat) : Nat := 0xB800 + 0x4 * i

/-- First page of ACT. -/
abbrev ACT_PAGE : Nat := 0xA
abbrev ACT_CTRL : Nat := 0xA004
abbrev ACT_STAT : Nat := 0xA008
abbrev ACT_EVT : Nat := 0xA00C
abbrev ACT_EVT_EN : Nat := 0xA010
abbrev ACT_OWNER : Nat := 0xA014
abbrev ACT_ERR_CNT : Nat := 0xA018
abbrev ACT_SEAL : Nat := 0xA01C
abbrev ACT_BAD_IDX : Nat := 0xA040
abbrev ACT_STANDING : Nat := 0xA044
abbrev ACT_MISS_CNT : Nat := 0xA048
abbrev ACT_MISS_IDX : Nat := 0xA04C
abbrev ACT_FIRE_CNT : Nat := 0xA050
abbrev ACT_STATE (i : Nat) : Nat := 0xA800 + 0x4 * i

/-- First page of PORTG. -/
abbrev PORTG_PAGE (n : Nat) : Nat := 0x10 + n
abbrev PORTG_CTRL (n : Nat) : Nat := 0x10004 + 0x1000 * n
abbrev PORTG_STAT (n : Nat) : Nat := 0x10008 + 0x1000 * n
abbrev PORTG_EVT (n : Nat) : Nat := 0x1000C + 0x1000 * n
abbrev PORTG_EVT_EN (n : Nat) : Nat := 0x10010 + 0x1000 * n
abbrev PORTG_OWNER (n : Nat) : Nat := 0x10014 + 0x1000 * n
abbrev PORTG_ERR_CNT (n : Nat) : Nat := 0x10018 + 0x1000 * n
abbrev PORTG_SEAL (n : Nat) : Nat := 0x1001C + 0x1000 * n
abbrev PORTG_GRP_ALLOC (n : Nat) : Nat := 0x10040 + 0x1000 * n
abbrev PORTG_GRP_DRAW (n : Nat) : Nat := 0x10044 + 0x1000 * n
abbrev PORTG_CFG (n i : Nat) : Nat := 0x10080 + 0x1000 * n + 0x20 * i
abbrev PORTG_STATE (n i : Nat) : Nat := 0x10084 + 0x1000 * n + 0x20 * i
abbrev PORTG_LIVE (n i : Nat) : Nat := 0x10088 + 0x1000 * n + 0x20 * i
abbrev PORTG_POWER (n i : Nat) : Nat := 0x1008C + 0x1000 * n + 0x20 * i
abbrev PORTG_VI (n i : Nat) : Nat := 0x10090 + 0x1000 * n + 0x20 * i
abbrev PORTG_ALLOC (n i : Nat) : Nat := 0x10094 + 0x1000 * n + 0x20 * i
abbrev PORTG_CNT (n i : Nat) : Nat := 0x10098 + 0x1000 * n + 0x20 * i

/-- First page of PWR. -/
abbrev PWR_PAGE : Nat := 0x20
abbrev PWR_CTRL : Nat := 0x20004
abbrev PWR_STAT : Nat := 0x20008
abbrev PWR_EVT : Nat := 0x2000C
abbrev PWR_EVT_EN : Nat := 0x20010
abbrev PWR_OWNER : Nat := 0x20014
abbrev PWR_ERR_CNT : Nat := 0x20018
abbrev PWR_SEAL : Nat := 0x2001C
abbrev PWR_CFG : Nat := 0x20040
abbrev PWR_AVAIL : Nat := 0x20044
abbrev PWR_ALLOC_SUM : Nat := 0x20048
abbrev PWR_DRAW : Nat := 0x2004C
abbrev PWR_SUPPLY : Nat := 0x20050
abbrev PWR_CELLS : Nat := 0x20054
abbrev PWR_SHED_AT : Nat := 0x20058
abbrev PWR_SHED_CNT : Nat := 0x20060
abbrev PWR_WAITING : Nat := 0x20064

/-- First page of METER. -/
abbrev METER_PAGE : Nat := 0x24
abbrev METER_CTRL : Nat := 0x24004
abbrev METER_STAT : Nat := 0x24008
abbrev METER_EVT : Nat := 0x2400C
abbrev METER_EVT_EN : Nat := 0x24010
abbrev METER_OWNER : Nat := 0x24014
abbrev METER_ERR_CNT : Nat := 0x24018
abbrev METER_SEAL : Nat := 0x2401C
abbrev METER_CH_FAULT : Nat := 0x24040
abbrev METER_Q_SEL : Nat := 0x24044
abbrev METER_Q_STAT : Nat := 0x24048
abbrev METER_Q_VAL : Nat := 0x24050
abbrev METER_CAL_CNT : Nat := 0x24058
abbrev METER_CAL_FAIL_CNT : Nat := 0x2405C
abbrev METER_AC_NL (i : Nat) : Nat := 0x24060 + 0x4 * i
abbrev METER_AC_NL_TOTAL : Nat := 0x2406C
abbrev METER_AUX_CFG (i : Nat) : Nat := 0x24080 + 0x8 * i
abbrev METER_AUX_NL (i : Nat) : Nat := 0x24084 + 0x8 * i
abbrev METER_PORT_NL (i : Nat) : Nat := 0x24400 + 0x4 * i

/-- First page of TACC. -/
abbrev TACC_PAGE : Nat := 0x25
abbrev TACC_CTRL : Nat := 0x25004
abbrev TACC_STAT : Nat := 0x25008
abbrev TACC_EVT : Nat := 0x2500C
abbrev TACC_EVT_EN : Nat := 0x25010
abbrev TACC_OWNER : Nat := 0x25014
abbrev TACC_ERR_CNT : Nat := 0x25018
abbrev TACC_SEAL : Nat := 0x2501C
abbrev TACC_CFG : Nat := 0x25040
abbrev TACC_INTV : Nat := 0x25044
abbrev TACC_CLOSE_AT : Nat := 0x2504C
abbrev TACC_D_AC : Nat := 0x25054
abbrev TACC_D_PORT : Nat := 0x25058
abbrev TACC_D_AUX : Nat := 0x2505C
abbrev TACC_D_INT : Nat := 0x25060
abbrev TACC_D_LOSS : Nat := 0x25064
abbrev TACC_COMMIT_CNT : Nat := 0x25068
abbrev TACC_MISMATCH_CNT : Nat := 0x2506C
abbrev TACC_LI (i : Nat) : Nat := 0x25100 + 0x4 * i
abbrev TACC_LS (i : Nat) : Nat := 0x25200 + 0x4 * i

/-- First page of PULSE. -/
abbrev PULSE_PAGE : Nat := 0x26
abbrev PULSE_CTRL : Nat := 0x26004
abbrev PULSE_STAT : Nat := 0x26008
abbrev PULSE_EVT : Nat := 0x2600C
abbrev PULSE_EVT_EN : Nat := 0x26010
abbrev PULSE_OWNER : Nat := 0x26014
abbrev PULSE_ERR_CNT : Nat := 0x26018
abbrev PULSE_SEAL : Nat := 0x2601C
abbrev PULSE_PO_CFG (i : Nat) : Nat := 0x26040 + 0x10 * i
abbrev PULSE_PO_CONST (i : Nat) : Nat := 0x26044 + 0x10 * i
abbrev PULSE_PO_STATE (i : Nat) : Nat := 0x26048 + 0x10 * i
abbrev PULSE_PO_CNT (i : Nat) : Nat := 0x2604C + 0x10 * i

/-- First page of SCAN. -/
abbrev SCAN_PAGE : Nat := 0x28
abbrev SCAN_CTRL : Nat := 0x28004
abbrev SCAN_STAT : Nat := 0x28008
abbrev SCAN_EVT : Nat := 0x2800C
abbrev SCAN_EVT_EN : Nat := 0x28010
abbrev SCAN_OWNER : Nat := 0x28014
abbrev SCAN_ERR_CNT : Nat := 0x28018
abbrev SCAN_SEAL : Nat := 0x2801C
abbrev SCAN_CFG : Nat := 0x28040
abbrev SCAN_RUN : Nat := 0x28044
abbrev SCAN_CHECK : Nat := 0x28048
abbrev SCAN_WCET : Nat := 0x2804C
abbrev SCAN_LIMIT : Nat := 0x28050
abbrev SCAN_PROG_ID : Nat := 0x28054
abbrev SCAN_SCANS : Nat := 0x2805C
abbrev SCAN_LAST_START : Nat := 0x28060
abbrev SCAN_LAST_TIME : Nat := 0x28068
abbrev SCAN_MAX_TIME : Nat := 0x2806C
abbrev SCAN_OVR_CNT : Nat := 0x28070
abbrev SCAN_DFAIL_CNT : Nat := 0x28074
abbrev SCAN_LAST_DFAIL : Nat := 0x28078
abbrev SCAN_SLOT_FULL_CNT : Nat := 0x2807C
abbrev SCAN_TAGV_CNT : Nat := 0x28080
abbrev SCAN_FORCES : Nat := 0x28084
abbrev SCAN_CHG_CTRL : Nat := 0x28088
abbrev SCAN_CHG_STAT : Nat := 0x2808C
abbrev SCAN_CHG_AT : Nat := 0x28090
abbrev SCAN_CHG (i : Nat) : Nat := 0x28100 + 0x8 * i

/-- First page of LOOP. -/
abbrev LOOP_PAGE : Nat := 0x29
abbrev LOOP_CTRL : Nat := 0x29004
abbrev LOOP_STAT : Nat := 0x29008
abbrev LOOP_EVT : Nat := 0x2900C
abbrev LOOP_EVT_EN : Nat := 0x29010
abbrev LOOP_OWNER : Nat := 0x29014
abbrev LOOP_ERR_CNT : Nat := 0x29018
abbrev LOOP_SEAL : Nat := 0x2901C
abbrev LOOP_L_SEL : Nat := 0x29040
abbrev LOOP_LCFG (i : Nat) : Nat := 0x29044 + 0x4 * i
abbrev LOOP_L_CTRL : Nat := 0x2905C
abbrev LOOP_L_STAT : Nat := 0x29060
abbrev LOOP_L_OUT : Nat := 0x29064
abbrev LOOP_L_LAST_AT : Nat := 0x29068
abbrev LOOP_S_SEL : Nat := 0x29070
abbrev LOOP_C (i : Nat) : Nat := 0x29074 + 0x4 * i
abbrev LOOP_SHIFTS : Nat := 0x29088
abbrev LOOP_BAD : Nat := 0x2908C
abbrev LOOP_OVR_CNT : Nat := 0x29090
abbrev LOOP_MISS_CNT : Nat := 0x29094
abbrev LOOP_MISMATCH_CNT : Nat := 0x29098
abbrev LOOP_LAST_HOLD : Nat := 0x2909C
abbrev LOOP_LSTATE (i : Nat) : Nat := 0x29800 + 0x4 * i

/-- First page of RED. -/
abbrev RED_PAGE : Nat := 0x2C
abbrev RED_CTRL : Nat := 0x2C004
abbrev RED_STAT : Nat := 0x2C008
abbrev RED_EVT : Nat := 0x2C00C
abbrev RED_EVT_EN : Nat := 0x2C010
abbrev RED_OWNER : Nat := 0x2C014
abbrev RED_ERR_CNT : Nat := 0x2C018
abbrev RED_SEAL : Nat := 0x2C01C
abbrev RED_AUTH : Nat := 0x2C040
abbrev RED_ROLE : Nat := 0x2C044
abbrev RED_LEASE : Nat := 0x2C048
abbrev RED_EXPIRY : Nat := 0x2C04C
abbrev RED_CLAIM_AT : Nat := 0x2C054
abbrev RED_GAP_FROM : Nat := 0x2C05C
abbrev RED_LAST_SW : Nat := 0x2C064
abbrev RED_SW_CNT : Nat := 0x2C068
abbrev RED_MISMATCH : Nat := 0x2C06C
abbrev RED_MISMATCH_AT : Nat := 0x2C070
abbrev RED_MISMATCH_CNT : Nat := 0x2C078
abbrev RED_DRILL_AT : Nat := 0x2C07C
abbrev RED_DRILL_CTRL : Nat := 0x2C084
abbrev RED_SYNC : Nat := 0x2C088
abbrev RED_SYNC_ERR_CNT : Nat := 0x2C08C
abbrev RED_RESYNC : Nat := 0x2C090
abbrev RED_RESYNC_CNT : Nat := 0x2C094

/-- First page of SWF. -/
abbrev SWF_PAGE : Nat := 0x30
abbrev SWF_CTRL : Nat := 0x30004
abbrev SWF_STAT : Nat := 0x30008
abbrev SWF_EVT : Nat := 0x3000C
abbrev SWF_EVT_EN : Nat := 0x30010
abbrev SWF_OWNER : Nat := 0x30014
abbrev SWF_ERR_CNT : Nat := 0x30018
abbrev SWF_SEAL : Nat := 0x3001C
abbrev SWF_CFG : Nat := 0x30040
abbrev SWF_MGMT : Nat := 0x30044
abbrev SWF_IP_A : Nat := 0x30048
abbrev SWF_IP_B : Nat := 0x3004C
abbrev SWF_IP_MASK : Nat := 0x30050
abbrev SWF_IP_GW : Nat := 0x30054
abbrev SWF_FDB_USED : Nat := 0x30058
abbrev SWF_CNT_SEL : Nat := 0x3005C
abbrev SWF_CNT (i : Nat) : Nat := 0x30060 + 0x4 * i
abbrev SWF_PORT_CFG (i : Nat) : Nat := 0x30400 + 0x4 * i
abbrev SWF_PORT_STAT (i : Nat) : Nat := 0x30600 + 0x4 * i

/-- First page of UPL. -/
abbrev UPL_PAGE (n : Nat) : Nat := 0x31 + n
abbrev UPL_CTRL (n : Nat) : Nat := 0x31004 + 0x1000 * n
abbrev UPL_STAT (n : Nat) : Nat := 0x31008 + 0x1000 * n
abbrev UPL_EVT (n : Nat) : Nat := 0x3100C + 0x1000 * n
abbrev UPL_EVT_EN (n : Nat) : Nat := 0x31010 + 0x1000 * n
abbrev UPL_OWNER (n : Nat) : Nat := 0x31014 + 0x1000 * n
abbrev UPL_ERR_CNT (n : Nat) : Nat := 0x31018 + 0x1000 * n
abbrev UPL_SEAL (n : Nat) : Nat := 0x3101C + 0x1000 * n
abbrev UPL_CFG (n : Nat) : Nat := 0x31040 + 0x1000 * n
abbrev UPL_TAGS_LO (n : Nat) : Nat := 0x31044 + 0x1000 * n
abbrev UPL_TAGS_HI (n : Nat) : Nat := 0x31048 + 0x1000 * n
abbrev UPL_PAUSE_CNT (n : Nat) : Nat := 0x3104C + 0x1000 * n
abbrev UPL_PAUSE_MAX (n : Nat) : Nat := 0x31050 + 0x1000 * n
abbrev UPL_PAUSE_BROKEN (n : Nat) : Nat := 0x31054 + 0x1000 * n
abbrev UPL_CNT (n i : Nat) : Nat := 0x31058 + 0x1000 * n + 0x4 * i

/-- First page of WAKE. -/
abbrev WAKE_PAGE : Nat := 0x35
abbrev WAKE_CTRL : Nat := 0x35004
abbrev WAKE_STAT : Nat := 0x35008
abbrev WAKE_EVT : Nat := 0x3500C
abbrev WAKE_EVT_EN : Nat := 0x35010
abbrev WAKE_OWNER : Nat := 0x35014
abbrev WAKE_ERR_CNT : Nat := 0x35018
abbrev WAKE_SEAL : Nat := 0x3501C
abbrev WAKE_HIT : Nat := 0x35040
abbrev WAKE_WOKEN_CNT : Nat := 0x35044
abbrev WAKE_MASK_0 (i : Nat) : Nat := 0x35100 + 0x40 * i
abbrev WAKE_MASK_1 (i : Nat) : Nat := 0x35104 + 0x40 * i
abbrev WAKE_MASK_2 (i : Nat) : Nat := 0x35108 + 0x40 * i
abbrev WAKE_MASK_3 (i : Nat) : Nat := 0x3510C + 0x40 * i
abbrev WAKE_CHECK (i : Nat) : Nat := 0x35110 + 0x40 * i
abbrev WAKE_PORTS_0 (i : Nat) : Nat := 0x35114 + 0x40 * i
abbrev WAKE_PORTS_1 (i : Nat) : Nat := 0x35118 + 0x40 * i
abbrev WAKE_PORTS_2 (i : Nat) : Nat := 0x3511C + 0x40 * i
abbrev WAKE_PORTS_3 (i : Nat) : Nat := 0x35120 + 0x40 * i
abbrev WAKE_CFG (i : Nat) : Nat := 0x35124 + 0x40 * i
abbrev WAKE_HITS (i : Nat) : Nat := 0x35128 + 0x40 * i

/-- First page of CAN. -/
abbrev CAN_PAGE (n : Nat) : Nat := 0x38 + n
abbrev CAN_CTRL (n : Nat) : Nat := 0x38004 + 0x1000 * n
abbrev CAN_STAT (n : Nat) : Nat := 0x38008 + 0x1000 * n
abbrev CAN_EVT (n : Nat) : Nat := 0x3800C + 0x1000 * n
abbrev CAN_EVT_EN (n : Nat) : Nat := 0x38010 + 0x1000 * n
abbrev CAN_OWNER (n : Nat) : Nat := 0x38014 + 0x1000 * n
abbrev CAN_ERR_CNT (n : Nat) : Nat := 0x38018 + 0x1000 * n
abbrev CAN_SEAL (n : Nat) : Nat := 0x3801C + 0x1000 * n
abbrev CAN_CFG (n : Nat) : Nat := 0x38040 + 0x1000 * n
abbrev CAN_NBT (n : Nat) : Nat := 0x38044 + 0x1000 * n
abbrev CAN_DBT (n : Nat) : Nat := 0x38048 + 0x1000 * n
abbrev CAN_TXO_CTRL (n : Nat) : Nat := 0x3804C + 0x1000 * n
abbrev CAN_DIR (n i : Nat) : Nat := 0x38050 + 0x1000 * n + 0x4 * i
abbrev CAN_ERR (n : Nat) : Nat := 0x38060 + 0x1000 * n
abbrev CAN_LEC (n : Nat) : Nat := 0x38064 + 0x1000 * n
abbrev CAN_RX_HEAD (n : Nat) : Nat := 0x38068 + 0x1000 * n
abbrev CAN_RECOV (n : Nat) : Nat := 0x3806C + 0x1000 * n
abbrev CAN_RX_FULL (n i : Nat) : Nat := 0x38070 + 0x1000 * n + 0x4 * i
abbrev CAN_TX_PEND (n : Nat) : Nat := 0x38080 + 0x1000 * n
abbrev CAN_RX_CNT (n : Nat) : Nat := 0x38084 + 0x1000 * n
abbrev CAN_RX_OVF (n : Nat) : Nat := 0x38088 + 0x1000 * n
abbrev CAN_TX_OK (n : Nat) : Nat := 0x3808C + 0x1000 * n
abbrev CAN_EXHAUST_CNT (n : Nat) : Nat := 0x38090 + 0x1000 * n
abbrev CAN_BUSOFF_CNT (n : Nat) : Nat := 0x38094 + 0x1000 * n
abbrev CAN_TX_FULL_CNT (n : Nat) : Nat := 0x38098 + 0x1000 * n
abbrev CAN_ERRF_CNT (n : Nat) : Nat := 0x3809C + 0x1000 * n

/-- First page of KEY. -/
abbrev KEY_PAGE : Nat := 0x40
abbrev KEY_CTRL : Nat := 0x40004
abbrev KEY_STAT : Nat := 0x40008
abbrev KEY_EVT : Nat := 0x4000C
abbrev KEY_EVT_EN : Nat := 0x40010
abbrev KEY_OWNER : Nat := 0x40014
abbrev KEY_ERR_CNT : Nat := 0x40018
abbrev KEY_SEAL : Nat := 0x4001C
abbrev KEY_ROOT : Nat := 0x40040
abbrev KEY_K_SEL : Nat := 0x40044
abbrev KEY_K_ARG : Nat := 0x40048
abbrev KEY_K_USE : Nat := 0x4004C
abbrev KEY_K_OP : Nat := 0x40050
abbrev KEY_K_RES : Nat := 0x40054
abbrev KEY_K_KCV : Nat := 0x40058
abbrev KEY_INVAL_CNT : Nat := 0x4005C
abbrev KEY_USED : Nat := 0x40060
abbrev KEY_ZERO : Nat := 0x40064
abbrev KEY_K_DESC (i : Nat) : Nat := 0x40070 + 0x4 * i
abbrev KEY_LABEL (i : Nat) : Nat := 0x40080 + 0x4 * i
abbrev KEY_PUB (i : Nat) : Nat := 0x40100 + 0x4 * i
abbrev KEY_IMP (i : Nat) : Nat := 0x40200 + 0x4 * i

/-- First page of CRYPTO. -/
abbrev CRYPTO_PAGE : Nat := 0x41
abbrev CRYPTO_CTRL : Nat := 0x41004
abbrev CRYPTO_STAT : Nat := 0x41008
abbrev CRYPTO_EVT : Nat := 0x4100C
abbrev CRYPTO_EVT_EN : Nat := 0x41010
abbrev CRYPTO_OWNER : Nat := 0x41014
abbrev CRYPTO_ERR_CNT : Nat := 0x41018
abbrev CRYPTO_SEAL : Nat := 0x4101C
abbrev CRYPTO_TLS : Nat := 0x41040
abbrev CRYPTO_ATT : Nat := 0x41044
abbrev CRYPTO_C_OP : Nat := 0x41048
abbrev CRYPTO_C_LEN : Nat := 0x4104C
abbrev CRYPTO_C_RES : Nat := 0x41054
abbrev CRYPTO_HS_FAIL_CNT : Nat := 0x41058
abbrev CRYPTO_OP_CNT : Nat := 0x4105C
abbrev CRYPTO_IN (i : Nat) : Nat := 0x41400 + 0x4 * i
abbrev CRYPTO_OUT (i : Nat) : Nat := 0x41800 + 0x4 * i

/-- First page of BOOT. -/
abbrev BOOT_PAGE : Nat := 0x42
abbrev BOOT_CTRL : Nat := 0x42004
abbrev BOOT_STAT : Nat := 0x42008
abbrev BOOT_EVT : Nat := 0x4200C
abbrev BOOT_EVT_EN : Nat := 0x42010
abbrev BOOT_OWNER : Nat := 0x42014
abbrev BOOT_ERR_CNT : Nat := 0x42018
abbrev BOOT_SEAL : Nat := 0x4201C
abbrev BOOT_FW (i : Nat) : Nat := 0x42040 + 0x4 * i
abbrev BOOT_FW_CTRL : Nat := 0x42048
abbrev BOOT_FW_STAT : Nat := 0x4204C
abbrev BOOT_FUSE : Nat := 0x42050
abbrev BOOT_PROG_KEY : Nat := 0x42054
abbrev BOOT_IMG_CTRL : Nat := 0x42058
abbrev BOOT_IMG_DATA : Nat := 0x4205C
abbrev BOOT_IMG_STAT : Nat := 0x42060
abbrev BOOT_IMG_LEN : Nat := 0x42064
abbrev BOOT_FWVER (i : Nat) : Nat := 0x4206C + 0x4 * i

/-- First page of TARN. -/
abbrev TARN_PAGE : Nat := 0x44
abbrev TARN_CTRL : Nat := 0x44004
abbrev TARN_STAT : Nat := 0x44008
abbrev TARN_EVT : Nat := 0x4400C
abbrev TARN_EVT_EN : Nat := 0x44010
abbrev TARN_OWNER : Nat := 0x44014
abbrev TARN_ERR_CNT : Nat := 0x44018
abbrev TARN_SEAL : Nat := 0x4401C
abbrev TARN_DIRTY : Nat := 0x44040
abbrev TARN_STORE_SEQ : Nat := 0x44044
abbrev TARN_LAST_STORE : Nat := 0x4404C
abbrev TARN_STORE_TIME : Nat := 0x44054
abbrev TARN_STORE_CNT : Nat := 0x44058
abbrev TARN_BAD_PAGES : Nat := 0x4405C
abbrev TARN_LOCKS : Nat := 0x44060
abbrev TARN_PW_CTRL : Nat := 0x44064
abbrev TARN_PWD : Nat := 0x44068
abbrev TARN_WIN_BASE : Nat := 0x44070
abbrev TARN_H_CTRL : Nat := 0x44074
abbrev TARN_H_STAT : Nat := 0x44078
abbrev TARN_WIN (i : Nat) : Nat := 0x44800 + 0x4 * i

/-- First page of EVR. -/
abbrev EVR_PAGE : Nat := 0x45
abbrev EVR_CTRL : Nat := 0x45004
abbrev EVR_STAT : Nat := 0x45008
abbrev EVR_EVT : Nat := 0x4500C
abbrev EVR_EVT_EN : Nat := 0x45010
abbrev EVR_OWNER : Nat := 0x45014
abbrev EVR_ERR_CNT : Nat := 0x45018
abbrev EVR_SEAL : Nat := 0x4501C
abbrev EVR_CFG : Nat := 0x45040
abbrev EVR_FILL : Nat := 0x45044
abbrev EVR_SEQ_NEXT : Nat := 0x45048
abbrev EVR_PAGE_NO : Nat := 0x4504C
abbrev EVR_OLDEST : Nat := 0x45050
abbrev EVR_LOST_CNT : Nat := 0x45054
abbrev EVR_FLUSH_CNT : Nat := 0x45058
abbrev EVR_RD_CTRL : Nat := 0x45060
abbrev EVR_RD_ARG : Nat := 0x45064
abbrev EVR_RD_STAT : Nat := 0x45068
abbrev EVR_RD_PAGE : Nat := 0x4506C
abbrev EVR_APP_CTRL : Nat := 0x45070
abbrev EVR_RD_DIG (i : Nat) : Nat := 0x45080 + 0x4 * i
abbrev EVR_APP (i : Nat) : Nat := 0x45400 + 0x4 * i
abbrev EVR_REC (i : Nat) : Nat := 0x45800 + 0x4 * i

/-- First page of RTC. -/
abbrev RTC_PAGE : Nat := 0x48
abbrev RTC_CTRL : Nat := 0x48004
abbrev RTC_STAT : Nat := 0x48008
abbrev RTC_EVT : Nat := 0x4800C
abbrev RTC_EVT_EN : Nat := 0x48010
abbrev RTC_OWNER : Nat := 0x48014
abbrev RTC_ERR_CNT : Nat := 0x48018
abbrev RTC_SEAL : Nat := 0x4801C
abbrev RTC_SUBSEC : Nat := 0x48040
abbrev RTC_TIME : Nat := 0x48044
abbrev RTC_DATE : Nat := 0x48048
abbrev RTC_SECS : Nat := 0x4804C
abbrev RTC_SET_TIME : Nat := 0x48050
abbrev RTC_SET_DATE : Nat := 0x48054
abbrev RTC_SHIFT : Nat := 0x48058
abbrev RTC_DIFF : Nat := 0x4805C
abbrev RTC_PWRON : Nat := 0x48060
abbrev RTC_ALM_CFG (i : Nat) : Nat := 0x48080 + 0x20 * i
abbrev RTC_ALM_CTRL (i : Nat) : Nat := 0x48084 + 0x20 * i
abbrev RTC_ALM_STAT (i : Nat) : Nat := 0x48088 + 0x20 * i
abbrev RTC_C0_TIME (i : Nat) : Nat := 0x4808C + 0x20 * i
abbrev RTC_C0_DATE (i : Nat) : Nat := 0x48090 + 0x20 * i
abbrev RTC_C1_TIME (i : Nat) : Nat := 0x48094 + 0x20 * i
abbrev RTC_C1_DATE (i : Nat) : Nat := 0x48098 + 0x20 * i
abbrev RTC_LAST_0 (i : Nat) : Nat := 0x4809C + 0x20 * i
abbrev RTC_LAST_1 (i : Nat) : Nat := 0x48240 + 0x4 * i
abbrev RTC_PER_CFG (i : Nat) : Nat := 0x48300 + 0x10 * i
abbrev RTC_PER_PERIOD (i : Nat) : Nat := 0x48304 + 0x10 * i
abbrev RTC_PER_REMAIN (i : Nat) : Nat := 0x48308 + 0x10 * i

/-- First page of MEM. -/
abbrev MEM_PAGE : Nat := 0x4C
abbrev MEM_CTRL : Nat := 0x4C004
abbrev MEM_STAT : Nat := 0x4C008
abbrev MEM_EVT : Nat := 0x4C00C
abbrev MEM_EVT_EN : Nat := 0x4C010
abbrev MEM_OWNER : Nat := 0x4C014
abbrev MEM_ERR_CNT : Nat := 0x4C018
abbrev MEM_SEAL : Nat := 0x4C01C
abbrev MEM_SEL : Nat := 0x4C040
abbrev MEM_B_CFG : Nat := 0x4C044
abbrev MEM_B_STAT : Nat := 0x4C048
abbrev MEM_CE_CNT : Nat := 0x4C04C
abbrev MEM_UE_CNT : Nat := 0x4C050
abbrev MEM_COLLIDE_CNT : Nat := 0x4C054
abbrev MEM_REFUSED_CNT : Nat := 0x4C058
abbrev MEM_LAST_ERR : Nat := 0x4C05C
abbrev MEM_CONF (i : Nat) : Nat := 0x4C060 + 0x4 * i
abbrev MEM_PSTATE (i : Nat) : Nat := 0x4C0A0 + 0x4 * i

/-- First page of BKG. -/
abbrev BKG_PAGE : Nat := 0x4D
abbrev BKG_CTRL : Nat := 0x4D004
abbrev BKG_STAT : Nat := 0x4D008
abbrev BKG_EVT : Nat := 0x4D00C
abbrev BKG_EVT_EN : Nat := 0x4D010
abbrev BKG_OWNER : Nat := 0x4D014
abbrev BKG_ERR_CNT : Nat := 0x4D018
abbrev BKG_SEAL : Nat := 0x4D01C
abbrev BKG_CFG : Nat := 0x4D040
abbrev BKG_RUN : Nat := 0x4D044
abbrev BKG_DEFER : Nat := 0x4D048
abbrev BKG_DEFER_CNT : Nat := 0x4D04C
abbrev BKG_SCRUB_AGE : Nat := 0x4D050
abbrev BKG_TEST_POS : Nat := 0x4D054
abbrev BKG_TEST_PASS : Nat := 0x4D058
abbrev BKG_LEAK_AGE : Nat := 0x4D05C
abbrev BKG_RES_USED : Nat := 0x4D060

/-- First page of FAULT. -/
abbrev FAULT_PAGE : Nat := 0x50
abbrev FAULT_CTRL : Nat := 0x50004
abbrev FAULT_STAT : Nat := 0x50008
abbrev FAULT_EVT : Nat := 0x5000C
abbrev FAULT_EVT_EN : Nat := 0x50010
abbrev FAULT_OWNER : Nat := 0x50014
abbrev FAULT_ERR_CNT : Nat := 0x50018
abbrev FAULT_SEAL : Nat := 0x5001C
abbrev FAULT_PLANE_FLT : Nat := 0x50040
abbrev FAULT_FIELD_FLT : Nat := 0x50044
abbrev FAULT_WARN : Nat := 0x50048
abbrev FAULT_RELAY : Nat := 0x5004C
abbrev FAULT_RESTART : Nat := 0x50050
abbrev FAULT_START : Nat := 0x50054
abbrev FAULT_LAST_AT : Nat := 0x50058
abbrev FAULT_FLT_CNT : Nat := 0x50060
abbrev FAULT_PF : Nat := 0x50064
abbrev FAULT_HOLDUP : Nat := 0x50068
abbrev FAULT_WDOG_CNT : Nat := 0x5006C
abbrev FAULT_FANS : Nat := 0x50070
abbrev FAULT_TEMP : Nat := 0x50074

end Reg

end Sys2Proof.Machine
end

