-- ==== Sys2Proof/Machine/State.lean ====
section
/-!
DEFINITION. The machine's state as plain data: everything the spec gives the two control planes, the field side, the
Launch Fabric and the links between them, the queue of waiting commands, and the state after reset.
-/
namespace Sys2Proof.Machine

/-- No command of this machine ends in a fault: the spec gives every one an effect. -/
inductive Fault where
  /-- Kept for a state outside the model's reach; nothing raises it; safe. -/
  | unreachable
deriving DecidableEq, Repr

/-- Why a command has no meaning. -/
inductive Refusal where
  /-- A row of the table whose meaning is not written; raised by `exec` alone; safe. -/
  | notModelled (mnemonic : String)
deriving DecidableEq, Repr

/-! ### Access paths (R49, R54, R66) -/

/-- A window entry being written on one path (R54): the entry's first byte address and, for each of its words written so
far, the word offset, the mask of written bytes and the data. -/
structure EntryBuf where
  base : Nat
  words : List (Nat × Word × Word) := []
deriving DecidableEq, Repr

/-- What one access path (the HRP, or one Moarno session) holds for itself. `regs` are the per-path registers by byte
address; `latch` the latched high halves and `held` the held low words (R49), the latter as (mask of the bytes written, data), by low-word address;
`bufs` the open entry buffers by window (0 Point Map, 1 Action Table, 3 loop records, 4 wake filters, 5 loop sections); `answer` the words
that the path's last read returned; `violSec` and `supp` the record keeping of R309; `unlocks` the unlocked passwords as
(region, kind); `hostGroup` the held Tarn writes by byte offset (R367); `cursor` and `loaded` the record reading of R376;
`label`, `imp`, `inBuf` live in `regs`. -/
structure PathState where
  regs : Tab Word := []
  latch : Tab (Option Word) := []
  held : Tab (Word × Word) := []
  bufs : List (Nat × EntryBuf) := []
  answer : List Word := []
  violSec : Option Nat := none
  supp : Nat := 0
  unlocks : List (Nat × Nat) := []
  hostGroup : List (Nat × Word) := []
  hostOvf : Bool := false
  cursor : Nat := 0
  loaded : List Byte := []
  cmdPending : Bool := false
  recPending : Option Nat := none
deriving DecidableEq, Repr

/-- A waiting EVT_WAIT of a session (R66, R67): its masks and the true time, in ns, at which it times out. -/
structure EvtWait where
  masks : List Word
  until_ : Nat
  seq : Nat
  addr : Nat
deriving DecidableEq, Repr

/-- The answer to a session's last request: OP, STATUS, WORDS, ADDR, SEQ, VIOL and the returned words (R66). -/
structure MoarnoAnswer where
  op : Nat
  status : Nat
  words : Nat
  addr : Nat
  seq : Nat
  viol : Nat
  data : List Word
deriving DecidableEq, Repr

/-- One Moarno session (R66). `anchor` and `ident` are the trust anchor and server identity slots of its handshake
(R342); `submitting` holds SEQ and ADDR while a CMD_SUBMIT of the session waits for its decision. -/
structure Session where
  opened : Bool := false
  tag : Tag := 0
  anchor : Nat := 0
  ident : Nat := 1
  wait : Option EvtWait := none
  submitting : Option (Nat × Nat) := none
  answer : Option MoarnoAnswer := none
deriving DecidableEq, Repr

/-! ### Configuration queue (R57 to R60) -/

/-- One queued word write: the bits of `mask` at `addr` take `data`; it belongs to group `grp`. -/
structure QWrite where
  addr : Nat
  mask : Word
  data : Word
  grp : Nat
deriving DecidableEq, Repr

/-- A configuration group: `rel` is the half-cycle of its release, `held` the path (0 the HRP) that still gathers it,
`bad` that a write of it was refused for want of room (R59), `acked` that the standby has acknowledged it (R60). -/
structure CfgGroup where
  id : Nat
  rel : Option Nat := none
  held : Option Nat := none
  bad : Bool := false
  acked : Bool := false
deriving DecidableEq, Repr

/-! ### Mains time base (chapter 3) -/

/-- MPE states (R73). -/
inductive MpeState where
  | acquire
  | locked
  | flywheel
  | relock
deriving DecidableEq, Repr

def MpeState.num : MpeState → Nat
  | .acquire => 0
  | .locked => 1
  | .flywheel => 2
  | .relock => 3

/-- Cycle-numbering states (R86, R93). -/
inductive CycState where
  | none
  | standalone
  | adopted
  | source
deriving DecidableEq, Repr

def CycState.num : CycState → Nat
  | .none => 0
  | .standalone => 1
  | .adopted => 2
  | .source => 3

/-- One of a plane's last 128 tick-0 times (R84): its cycle, its PTP time and the trim applied at it. -/
structure TickRec where
  cycle : Nat
  ptp : Nat
  trim : Int
deriving DecidableEq, Repr

/-- What the MPE keeps of one phase (R72, R77, R78): whether its last sample was 0 or more; ticks since its last rising and falling
change of sign and between its last two rising ones; consecutive ticks with the envelope RMS below 70 % and below 20 % of NOM_V; the ticks of its
rising and falling crossings in the last cycles learned from, newest first; consecutive expected crossings missed; whether a sample came in the
cycle under way and whether it has been good so far; whole good cycles in a row. -/
structure PhaseTrk where
  high : Bool := false
  up : Nat := 1000000
  down : Nat := 1000000
  span : Nat := 0
  low70 : Nat := 0
  low20 : Nat := 0
  learned : List (Nat × Nat) := []
  missed : Nat := 0
  seen : Bool := false
  fine : Bool := false
  run : Nat := 0
deriving DecidableEq, Repr

/-- A plane's Mains Phase Engine and PTP servo. `tt16` is TT at tick 0 of the current cycle in 1/16 ns (R90) and `ttCycle` that
cycle; `per` is P(c) in force in 1/16 ns (R69), `own` the P(c) this plane computed for the cycle (R70) and `last` the P(c) of the cycle before;
`goods` are the periods of the last good cycles, newest first (R73); `meas` the frequencies and periods of the last five cycles,
newest first, with `fast` that the last crossing ended too fast a change (R72); `err` the phase error; `trk` the three phases; `runs` the whole cycles in a row that meet the
condition for leaving the state, `fresh` that the state was entered inside the cycle under way (R73, R74); `trimStep` the trim that P(c) carries (R87); `ranks` the best-master order of the
announces heard per uplink (R81); `sources` the announcers accepted so far (R83). -/
structure MpeSt where
  st : MpeState := .acquire
  slw : Bool := false
  timeValid : Bool := false
  phGood : BitVec 3 := 0
  per : Nat := 320000000
  own : Nat := 320000000
  last : Nat := 320000000
  tt16 : Nat := 0
  ttCycle : Nat := 0
  goods : List Nat := []
  meas : List (Nat × Nat) := []
  fast : Bool := false
  err : Int := 0
  trk : List PhaseTrk := []
  runs : Nat := 0
  fresh : Bool := true
  lockedTt : Option Nat := none
  sync : Nat := 0
  syncRun : Nat := 0
  ranks : List (Nat × Nat) := []
  cyc : CycState := .none
  hist : List TickRec := []
  sources : List Nat := []
  adopt : Option Int := none
  trim : Int := 0
  trimStep : Int := 0
  trimTarget : Int := 0
  trimLimit : Bool := false
  cycDiff : Int := 0
  realign : Bool := false
  hwm : Nat := 0
  hwmSecs : Nat := 0
deriving DecidableEq, Repr

/-! ### Deterministic commands (chapter 4) -/

/-- States of a command slot (R111, R123). -/
inductive SlotState where
  | free
  | booked
  | sent
  | launched
  | delivered
  | cancelled
  | aborted
  | abortLate
  | broken
deriving DecidableEq, Repr

def SlotState.num : SlotState → Nat
  | .free => 0
  | .booked => 1
  | .sent => 2
  | .launched => 3
  | .delivered => 4
  | .cancelled => 5
  | .aborted => 6
  | .abortLate => 7
  | .broken => 8

/-- DELIVERED, CANCELLED, ABORTED, ABORT_LATE and DEADLINE_BROKEN are final (R111). -/
def SlotState.final : SlotState → Bool
  | .delivered | .cancelled | .aborted | .abortLate | .broken => true
  | _ => false

/-- What a command launches (R95): an Action Table entry with the command value and the entries copied at acceptance
(R105), a PSE state change, or an inline classic CAN frame. -/
inductive Action where
  | table (idx : Nat) (value : Nat) (copy : List (List Word))
  | pse (port : Nat) (on : Bool)
  | can (chan ident : Nat) (ide : Bool) (dlc : Nat) (data : List Byte)
deriving DecidableEq, Repr

/-- A command slot (R111, R123). `scan` is, for a scan command, its origin as LAST_DFAIL shows it (R221); `aborters` the paths
whose aborts wait for the field side's answer (R114). -/
structure Slot where
  st : SlotState := .free
  cause : Nat := 0
  tag : Tag := 0
  g1 : Bool := false
  earliest : Bool := false
  seq : Nat := 0
  launch : Nat := 0
  recovery : Option Nat := none
  moved : Bool := false
  deadline : Nat := 0
  doneAt : Nat := 0
  done : Bool := false
  path : Nat := 0
  action : Action := .pse 0 false
  scan : Option Nat := none
  aborters : List Nat := []
deriving DecidableEq, Repr

/-- What a block comes from: a command slot, a standing head or loop (R119), a port's intent (R150), or the lease (R246). -/
inductive LaunchSrc where
  | slot (n : Nat)
  | head (i : Nat)
  | loop (l : Nat)
  | intent (port : Nat)
  | lease
deriving DecidableEq, Repr

/-- One booking of Weir's model (R101): its launch tick, path, the link that carries its blocks with their number, and for
CAN its duration in µs and in ticks. `recov` marks a class G1 recovery booking (R99); `solo` one made while its link was the only live
one, which carries its reserved re-sends too (R121). -/
structure Booking where
  src : LaunchSrc
  tick : Nat
  path : Nat
  link : Nat
  blocks : Nat
  canUs : Nat := 0
  canTicks : Nat := 0
  recov : Bool := false
  solo : Bool := false
deriving DecidableEq, Repr

/-- A submission waiting for Weir (R96, R109): its path (0 HRP, 1 to 8 sessions, 9 the Scan Engine), the tag of the access
and the record's bytes. -/
structure Submission where
  path : Nat
  tag : Tag
  record : List Byte
  origin : Nat := 0
deriving DecidableEq, Repr

/-- A Launch Fabric block sent and not yet acknowledged: its link and LSEQ, its place in the launch, the number of times it was
sent, the launch it carries and its 64 bytes (R119, R120). -/
structure TxBlock where
  link : Nat
  lseq : Nat
  idx : Nat
  tries : Nat
  src : LaunchSrc
  bytes : List Byte
  len : Nat := 40
deriving DecidableEq, Repr

/-- A plane's Weir, command slots and Launch Fabric ends. `nextSeq` is the CMD_SEQ of the next acceptance (R105); `turn` the
source Weir serves next (R109); `lseqTx` and `lseqRx` the block counts per link; `inject` the armed error (R124); `fired` the
standing launches of the last half-cycles that the field side reported made, as (source, tick); `stopped` that a module restart
has disabled every path (R427); `load` the blocks counted per link
for the last completed half-cycle and the one under way; `copies` the entries, by head and tick, of the firings whose build boundary has come (R143);
`reserve` the blocks per link that second re-sends and ABORT blocks have taken from the
background reserve of the half-cycle (R104). -/
structure WeirSt where
  slots : Tab Slot := []
  books : List Booking := []
  subs : List Submission := []
  scanQ : List Submission := []
  nextSeq : Nat := 0
  turn : Nat := 0
  tx : List TxBlock := []
  lseqTx : List Nat := [0, 0]
  lseqRx : List Nat := [0, 0]
  linkUp : List Bool := [false, false]
  inject : Option Nat := none
  supplyShed : Bool := false
  stopped : Bool := false
  gapMax : Nat := 4
  g1Slack : Nat := 4
  modePending : Bool := false
  scanSlots : Nat := 64
  load : List (List Nat) := [[0, 0]]
  intentBooks : List (Nat × Nat) := []
  fired : List (Nat × Nat) := []
  copies : List (Nat × Nat × List (List Word)) := []
  reserve : List Nat := [0, 0]
deriving DecidableEq, Repr

/-- A launch in the field side's queue (R120): the plane that sent it, its key, tick, path, tag and the payloads of the blocks
that have arrived, by place; `last` is the place of its LAST block, `released` holds once released. -/
structure Launch where
  plane : PlaneId
  standing : Bool
  slot : Nat
  seq : Nat
  tick : Nat
  path : Nat
  tag : Tag
  parts : Tab (List Byte) := []
  last : Option Nat := none
  released : Bool := false
deriving DecidableEq, Repr

/-! ### Points and heads (chapter 5) -/

/-- A point (R127 to R130): its last raw value, value, quality (0 none, 1 GOOD, 2 UNCERTAIN, 3 BAD), age in half-cycles and
the last value it held while GOOD or UNCERTAIN. `lost` holds while its station is lost under R315, `unwritten` for an output point that no image has
written since it was applied. -/
structure PointSt where
  raw : Int := 0
  value : Int := 0
  qual : Nat := 0
  age : Nat := 0
  last : Int := 0
  lost : Bool := false
  unwritten : Bool := false
deriving DecidableEq, Repr

/-- States of an Action Table head (R141, R145). -/
inductive HeadState where
  | none
  | off
  | ready
  | armed
  | parked
  | fired
  | expired
  | refused
  | incomplete
  | stopped
deriving DecidableEq, Repr

def HeadState.num : HeadState → Nat
  | .none => 0
  | .off => 1
  | .ready => 2
  | .armed => 3
  | .parked => 4
  | .fired => 5
  | .expired => 6
  | .refused => 7
  | .incomplete => 8
  | .stopped => 9

/-- A head: its state and the number of firing ticks scheduled since it was last applied (R137, SEQ). `foreign` holds where a
tag move stopped it (R315). -/
structure HeadSt where
  st : HeadState := .none
  sched : Nat := 0
  foreign : Bool := false
deriving DecidableEq, Repr

/-! ### Ports and the power budget (chapter 6) -/

/-- Measured states of a port (R153, R165). -/
inductive PortState where
  | disabled
  | searching
  | classifying
  | waitBudget
  | denied
  | powerUp
  | powered
  | sleep
  | fault
  | shed
deriving DecidableEq, Repr

def PortState.num : PortState → Nat
  | .disabled => 0
  | .searching => 1
  | .classifying => 2
  | .waitBudget => 3
  | .denied => 4
  | .powerUp => 5
  | .powered => 6
  | .sleep => 7
  | .fault => 8
  | .shed => 9

/-- A port at the field side. `cmd` is the commanded state (0 OFF, 1 ON, 2 SLEEP; R149) and `cmdAt` the stamp of its last
change; `st` is the state as its PSE controller has it, and `volt` that its output was last measured at or above 44 V (R152); classes read 15 for none
(R165); powers are in mW; `since` is the stamp of entry to the state; `shedNo` the place in the order of an overload shed (R162); `grantNo` orders the
granted ports that wait to start POWER_UP and `powerUpAt` is the stamp at which one starts (R159); `pSum` and `pCnt` sum the half-cycle's samples of
output power; `speed` is the link speed in Mbit/s and `rate` the one whose figures bookings go by (R265); `capt` the frames captured in the half-cycle
(R273). -/
structure PortSt where
  cmd : Nat := 0
  cmdAt : Nat := 0
  st : PortState := .disabled
  since : Nat := 0
  fault : Nat := 0
  classReq : Nat := 15
  cls : Nat := 15
  classReqB : Nat := 15
  clsB : Nat := 15
  dual : Bool := false
  fourPair : Bool := false
  volt : Bool := false
  attempt : Nat := 0
  disagree : Bool := false
  alloc : Nat := 0
  lastGrant : Nat := 0
  grantNo : Option Nat := none
  powerUpAt : Option Nat := none
  held : Bool := false
  shedNo : Option Nat := none
  regrant : Bool := false
  power : Nat := 0
  pSum : Nat := 0
  pCnt : Nat := 0
  mv : Nat := 0
  ma : Nat := 0
  link : Bool := false
  speed : Nat := 1000
  rate : Nat := 1000
  capt : Nat := 0
deriving DecidableEq, Repr

/-- The power stage (R157 to R162). `vmin` is in V; `avail` in mW; `rises` the values computed at the consecutive boundaries
above AVAIL; `hot` that an internal sensor stands above its limit (R435); `ride` that ride-through runs, `rideEnd` its end tick; `okTt` TT at which SLW last cleared, `frozen` the frozen supply rating. -/
structure PowerSt where
  cells : BitVec 4 := 0xF
  vmin : Nat := 0
  intake : Nat := 0
  avail : Nat := 0
  rises : List Nat := []
  slw : Bool := false
  slwAt : Nat := 0
  slwTt : Nat := 0
  okTt : Option Nat := none
  ride : Bool := false
  rideEnd : Option Nat := none
  frozen : Option Nat := none
  partial_ : Bool := false
  shed : Bool := false
  shedAt : Nat := 0
  shedNext : Nat := 0
  ready : Bool := false
  hot : Bool := false
deriving DecidableEq, Repr

/-! ### Metering, accounts and pulses (chapter 7) -/

/-- Running sums of one channel: Σ v·i·P, Σ v(s − 1,024)·i·P, Σ v², Σ i², samples and Σ P, with samples in their LSB and P
in 1/16 ns (R175). -/
structure ChanAcc where
  p : Int := 0
  q : Int := 0
  v2 : Nat := 0
  i2 : Nat := 0
  n : Nat := 0
  dt : Nat := 0
deriving DecidableEq, Repr

/-- A plane's metering. `vHist` holds the last 1,025 voltage samples of L1 to L3, newest first; `half` and `cyc` the sums of
channels 0 to 2 (AC phases), 3 (neutral) and 4 to 15 (auxiliary) over the half-cycle and the cycle; `portAcc` and `intAcc`
Σ of the half-cycle's port and internal products; `energy` the energy registers in 2^-32 of their unit, by register number
(R171, R178); `vals` the other quantities; `whole` the energy registers as at the last interval close; `bound` as at the
last half-cycle boundary; `faults` the channels, by bits [15:4] of their register numbers, with a modulator or measurement fault,
`signals` the AC signals faulted (CH_FAULT.AC), `got` the kinds of block that have come in the tick under way (R168), `calFault` the channels whose calibration check fails, `drifts` those beyond 0.1 %. -/
structure MeterSt where
  vHist : List (List Int) := [[], [], []]
  half : List ChanAcc := []
  cyc : List ChanAcc := []
  portAcc : Tab Nat := []
  intAcc : Nat := 0
  energy : Tab Int := []
  vals : Tab Int := []
  whole : Tab Int := []
  bound : Tab Int := []
  faults : List Nat := []
  signals : Nat := 0
  got : List Nat := []
  calFault : List Nat := []
  drifts : List Nat := []
deriving DecidableEq, Repr

/-- A plane's accounts and intervals (R180 to R189). `w` and `aux` are the interval's port and auxiliary import energy by
tag, `auxExp` its auxiliary export; `org` is T_org in ns and `idx` the number of intervals numbered since; `carry` the
apportionment carries (R182); `sinceCommit` the closes since the last commit. -/
structure AcctSt where
  running : Bool := false
  org : Nat := 0
  idx : Nat := 0
  intv : Nat := 0
  w : Tab Int := []
  aux : Tab Int := []
  auxExp : Tab Int := []
  carry : Tab Int := []
  sinceCommit : Nat := 0
  snapTt : Nat := 0
  frozen : Bool := false
deriving DecidableEq, Repr

/-- A pulse output in a plane: residue in µWh and owed pulses (R191). -/
structure PulseSt where
  residue : Int := 0
  owed : Nat := 0
  last : Int := 0
deriving DecidableEq, Repr

/-- A pulse output at the field side: queued pulses, pulses made, whether one runs, and the true time, in ns, at which the
running pulse or the gap after it ends (R192). -/
structure PulseOut where
  queued : Nat := 0
  made : Nat := 0
  active : Bool := false
  until_ : Nat := 0
deriving DecidableEq, Repr

/-! ### The Scan Engine and the Loop Engine (chapters 8 and 9) -/

/-- Scan engine states (R207). -/
inductive ScanState where
  | empty
  | stopped
  | running
  | halted
deriving DecidableEq, Repr

def ScanState.num : ScanState → Nat
  | .empty => 0
  | .stopped => 1
  | .running => 2
  | .halted => 3

/-- A scan's output image from its boundary to its submission (R207, R208): the scan start, the written points with value and
quality, the commands to form as (origin, record with SLOT 0), the loop requests as (loop, mode, manual value), whether it is
complete and when it was. -/
structure ScanImage where
  start : Nat
  points : Tab (Int × Nat) := []
  fires : List (Nat × List Byte) := []
  calls : List (Nat × Int × Int) := []
  complete : Bool := false
  doneAt : Nat := 0
deriving DecidableEq, Repr

/-- A released online change group (R218): the boundary from which it may apply, its COUNT and its items as (low word, value). -/
structure ChgGroup where
  at_ : Nat
  count : Nat
  items : List (Nat × Int)
deriving DecidableEq, Repr

/-- A plane's Scan Engine. `prog` and `staged` are the bodies of the installed program and of the staged image; `consts` the
constants changed online; `forces` the forced objects by operand (R219); `cmd` the RUN commands applied and not yet acted on; `start` a start waiting for its scan boundary (cold or
warm); `image` the output image under way; `sense` the on or off of each kind 4 point in the last submitted image; `stateId` the
PROG_ID whose retained and state areas are held, with whether the recalled commit was FINAL, its TT and clock reading; `checkAt`
the true time at which a running check ends, `check` its result and block and `checking` the image it checks; `prior` the retained and state areas as
the last completed scan left them, while a later one has changed them; `stopTt` TT at the last STOP; `digest` the last output digest and `stored` the output image it was formed over (R244). -/
structure ScanSt where
  st : ScanState := .empty
  prog : Option (List Byte) := none
  staged : Option (List Byte) := none
  consts : Tab Int := []
  markers : Tab Int := []
  retained : Tab Int := []
  state : Tab Int := []
  forces : Tab Int := []
  cmd : List Nat := []
  start : Option Bool := none
  first : Bool := false
  warm : Bool := false
  image : Option ScanImage := none
  sense : Tab Nat := []
  consec : Nat := 0
  changes : List ChgGroup := []
  checkAt : Option Nat := none
  check : Option (Nat × Nat) := none
  checking : Option (List Byte) := none
  prior : Option (Tab Int × Tab Int) := none
  dfails : Nat := 0
  commitTt : Nat := 0
  stateId : Option Nat := none
  stateFinal : Bool := true
  stateTt : Nat := 0
  stateClock : Option Nat := none
  recalled : Bool := false
  stopTt : Option Nat := none
  lastDone : Nat := 0
  digest : Nat := 0
  stored : List Byte := []
deriving DecidableEq, Repr

/-- Loop states (R233). -/
inductive LoopState where
  | off
  | auto
  | manual
  | hold
  | refused
deriving DecidableEq, Repr

def LoopState.num : LoopState → Nat
  | .off => 0
  | .auto => 1
  | .manual => 2
  | .hold => 3
  | .refused => 4

/-- The result of a sample from Q to Q + 24 (R227): its stamp Q, output and status, the states of its section slots, and whether a fault
keeps it from completing (R232). `was` is the loop's state before Q, which L_STAT and LSTATE show until Q + 24. -/
structure LoopNext where
  at_ : Nat
  was : LoopState := .off
  out : Int := 0
  atHi : Bool := false
  atLo : Bool := false
  held : Bool := false
  frozen : Bool := false
  sat : Bool := false
  dup : Bool := false
  stalled : Bool := false
  secs : List (Nat × Int × Int) := []
deriving DecidableEq, Repr

/-- A loop (R222, R233, R238). `swap` is a swap waiting for its sample, with SWAP_RESET; `seq` counts the launches scheduled since
its record was last applied (R137); `booked` holds while its standing booking stands; `foreign` while its head has lost its
path under R315; `next` the sample under way until Q + 24, and `call` a LOOP_CALL request (mode and manual value) waiting for its sample. -/
structure LoopSt where
  st : LoopState := .off
  bank : Nat := 0
  swap : Option Bool := none
  clear : Bool := false
  rearm : Bool := false
  out : Int := 0
  atHi : Bool := false
  atLo : Bool := false
  held : Bool := false
  frozen : Bool := false
  lstop : Bool := false
  sat : Bool := false
  dup : Bool := false
  consec : Nat := 0
  ovr : Nat := 0
  lastAt : Nat := 0
  seq : Nat := 0
  booked : Bool := false
  foreign : Bool := false
  next : Option LoopNext := none
  call : Option (Nat × Int) := none
deriving DecidableEq, Repr

/-- The state of a loop that L_STAT, LSTATE, ANY_HOLD and LOOP_READ show (R227, R238). -/
def LoopSt.shown (x : LoopSt) : LoopState :=
  match x.next with
  | some n => n.was
  | none => x.st

/-! ### The two planes and the Authority Unit (chapter 10) -/

/-- Roles of a plane (R239). -/
inductive Role where
  | offline
  | resync
  | standby
  | active
deriving DecidableEq, Repr

def Role.num : Role → Nat
  | .offline => 0
  | .resync => 1
  | .standby => 2
  | .active => 3

/-- A plane's redundancy state. `lastRenewed` is the stamp of the last RENEWED report seen (R249); `mine` its own latest digests
as (kind, stamp, digest) (kinds 0 output, 1 loop, 2 interval, 3 state) and `peer` those of the other plane; `drill` the armed
stamp D and `yield_` the boundary of a yield (R243); `phase` and `joinCut` the phase and the cut S of a resynchronisation (R256),
`retryAt` TT at which JOIN is sent again; `claiming` that a claim of this plane is under way, `heartClaim` that it was made for
want of renewals (R249); `lostAt` the stamp at which the last holder's authority ended (R250); `validAt` the stamp at which
TIME_VALID was set (R255); `viewHolder` the holder as last reported; `lastFrame` the stamp of the last frame on the sync link (R241); `leaveAt` the
boundary at which a standby leaves step after a mismatch and `judging` that a mismatch waits for the self-checks (R243); `kept` that an old
holder in an overlap ran in step with its successor (R249). -/
structure RedSt where
  role : Role := .offline
  syncUp : Bool := false
  selfOk : Bool := false
  ownExpired : Bool := false
  lastRenewed : Nat := 0
  mine : List (Nat × Nat × Nat) := []
  peer : List (Nat × Nat × Nat) := []
  drill : Option Nat := none
  yield_ : Option Nat := none
  phase : Nat := 0
  joinCut : Option Nat := none
  retryAt : Option Nat := none
  leaseSeq : Nat := 0
  noAuth : Bool := false
  claiming : Bool := false
  heartClaim : Bool := false
  lostAt : Option Nat := none
  validAt : Option Nat := none
  viewHolder : Nat := 0
  lastFrame : Nat := 0
  leaveAt : Option Nat := none
  judging : Bool := false
  kept : Bool := false
deriving DecidableEq, Repr

/-- The Authority Unit (R245): the holder, and in OVERLAP the old holder too, with the stamps at which their leases end,
TT at which the overlap ends, the stamp at which a guard has passed, the mode, length and OVERLAP_MAX in force, a RELEASE waiting for
its stamp D with its LEASE_SEQ, the stamp since which there is no holder, and C of the last grant. -/
structure AuthUnit where
  holder : Option PlaneId := none
  expiry : Nat := 0
  old : Option PlaneId := none
  oldExpiry : Nat := 0
  overlapEnd : Nat := 0
  guardEnd : Option Nat := none
  mode : Nat := 0
  len : Nat := 2
  ovl : Nat := 100
  release : Option (PlaneId × Nat) := none
  releaseSeq : Nat := 0
  vacantSince : Nat := 0
  claimAt : Nat := 0
deriving DecidableEq, Repr

/-! ### The frame network (chapter 11) -/

/-- An uplink at the field side. `tenG` is the mode of its link, `rate` that whose figures bookings go by (R265); `module` what its cage holds; `held` are the keys (standing, slot, seq) of released launches that have not started, in
launch-tick order (R276, R277); `pauseUntil` the true time, in ns, at which the pause timer expires, and `pauseFrom` the
stamp at which the hold began. -/
structure Uplink where
  link : Bool := false
  tenG : Bool := true
  rate : Bool := true
  module : Option Sfp := none
  pauseOk : Bool := false
  pauseUntil : Option Nat := none
  pauseFrom : Nat := 0
  held : List (Bool × Nat × Nat × Nat) := []
deriving DecidableEq, Repr

/-- A forwarding database entry (R267): MAC address, VID, the port or uplink (128 + i) it was learned on, and the true time, in
ns, of its last use. -/
structure FdbEntry where
  mac : Nat
  vid : Nat
  port : Nat
  used : Nat
deriving DecidableEq, Repr

/-- A PHY's negotiated results beyond link and speed (R263, R275, R282). -/
structure PhySt where
  pauseRx : Bool := false
  half : Bool := false
  speedRefused : Bool := false
  pauseUntil : Option Nat := none
deriving DecidableEq, Repr

/-- A cycle announcement as it leaves (R82): the uplink, the IPv4 group and UDP port it goes to, and its 48 bytes. -/
structure Announced where
  uplink : Nat
  group : Word
  port : Nat
  bytes : List Byte
deriving DecidableEq, Repr

/-- A PTP request that the module sends (R81): the plane and uplink, a peer delay request or a delay request, the data set it announces itself with,
and the stamp at which it is timestamped (R274). -/
structure PtpTx where
  plane : PlaneId
  uplink : Nat
  peer : Bool
  clockClass : Nat := 255
  priority1 : Nat := 255
  at_ : Nat
deriving DecidableEq, Repr

/-- A switched frame in an egress queue (R268): its priority and VLAN, where and at which true time, in ns, it came in, and the frame as received. -/
structure Switched where
  prio : Nat
  vid : Nat
  source : Nat
  at_ : Nat
  frame : List Byte
deriving DecidableEq, Repr

/-- The switch fabric: learned entries, per-plane drop counts by plane × 2^16 + port × 16 + cause, the forwarding uplink in
force by VID, speed drops waiting for a boundary, and the egress and bytes of the frames that the last received frame gave
rise to, with the last cycle announcement and management answer sent and the PTP requests of the tick. `queues` are the switched frames that wait at
each egress, in arrival order, and `freeAt` the true time, in ns, at which its wire is free again (R268); `stamps` are the timestamps of PTP event
messages as (port or uplink, whether received, ns) (R274). `sent`, `ptpSent` and `stamps` empty as a tick passes. -/
structure Fabric where
  fdb : List FdbEntry := []
  queues : Tab (List Switched) := []
  freeAt : Tab Nat := []
  stamps : List (Nat × Bool × Nat) := []
  counts : Tab Nat := []
  fwd : Tab Nat := []
  slower : List Nat := []
  sent : List (Nat × List Byte) := []
  annSent : Option Announced := none
  ptpSent : List PtpTx := []
  mgmtSent : Option (PlaneId × MgmtKind) := none
deriving DecidableEq, Repr

/-! ### CAN channels and the field supply (chapters 12 and 19) -/

/-- States of a transmit object (R298). -/
inductive TxState where
  | free
  | waiting
  | retrying
  | sent
  | exhausted
  | removed
deriving DecidableEq, Repr

def TxState.num : TxState → Nat
  | .free => 0
  | .waiting => 1
  | .retrying => 2
  | .sent => 3
  | .exhausted => 4
  | .removed => 5

/-- A CAN frame (R285, R292). -/
structure CanMsg where
  ident : Nat := 0
  ide : Bool := false
  fdf : Bool := false
  brs : Bool := false
  esi : Bool := false
  rtr : Bool := false
  dlc : Nat := 0
  data : List Byte := []
deriving DecidableEq, Repr

/-- A transmit object at the field side: the launch it carries by key, its frame, ATTEMPTS, RETRY limit and last error. -/
structure TxObj where
  st : TxState := .free
  msg : CanMsg := {}
  attempts : Nat := 0
  retry : Nat := 0
  err : Nat := 0
  tag : Nat := 0
  stamp : Nat := 0
  standing : Bool := false
  slot : Nat := 0
  seq : Nat := 0
  started : Bool := false
deriving DecidableEq, Repr

/-- A receive object of a plane (R293): its frame, stamp, tag, and the shadow with its stamp. -/
structure RxObj where
  full : Bool := false
  msg : CanMsg := {}
  stamp : Nat := 0
  tag : Nat := 0
  shadow : Option (CanMsg × Nat × Nat) := none
deriving DecidableEq, Repr

/-- A channel at the field side: error counts, fault confinement (0 error active, 1 error passive, 2 bus-off), recovery,
whether it has integrated on the bus, and the object whose attempt is on the bus. `recov` is what RECOV shows outside a recovery. -/
structure CanChan where
  tec : Nat := 0
  rec_ : Nat := 0
  fc : Nat := 0
  recovering : Bool := false
  recov : Nat := 0
  integrated : Bool := false
  lec : Nat := 0
  lecData : Bool := false
  onBus : Option Nat := none
  tx : Tab TxObj := []
deriving DecidableEq, Repr

/-- A plane's receive copy of a channel: objects by number and the write position (R293). -/
structure CanRx where
  objs : Tab RxObj := []
  wpos : Option Nat := none
deriving DecidableEq, Repr

/-- A field connector's supply (R446): output on, switched off for good, over-currents in a row, the true time, in ns, of the
next try and that of the last switch-on. -/
structure Supply where
  on : Bool := true
  latched : Bool := false
  runs : Nat := 0
  retryAt : Option Nat := none
  onAt : Nat := 0
deriving DecidableEq, Repr

/-! ### Keys, engines and images (chapter 14) -/

/-- States of a key slot (R326, R336). -/
inductive KeyState where
  | empty
  | active
  | invalid
deriving DecidableEq, Repr

def KeyState.num : KeyState → Nat
  | .empty => 0
  | .active => 1
  | .invalid => 2

/-- Staged key material with what a commit gives the slot: its use mask, origin and label identifier (R331). -/
structure KeyMat where
  mat : List Byte
  use : Nat
  imported : Bool
  label : Nat
deriving DecidableEq, Repr

/-- A key slot: its descriptor's fields, the active key's material, the staged key with VERIFIED and its check value (R326). -/
structure KeySlot where
  st : KeyState := .empty
  imported : Bool := false
  type : Nat := 0
  parent : Nat := 0
  tag : Nat := 0
  use : Nat := 0
  gen : Nat := 0
  label : Nat := 0
  kcv : Nat := 0
  key : Option (List Byte) := none
  staged : Option KeyMat := none
  verified : Bool := false
  stagedKcv : Nat := 0
deriving DecidableEq, Repr

/-- A key operation waiting for its turn, with its path's arguments as they stood at the write (R331): OP, slot, TYPE, PARENT, TAG,
use mask, label, and payload. -/
structure KeyReq where
  path : Nat
  access : Tag
  op : Nat
  slot : Nat
  type : Nat
  parent : Nat
  tag : Nat
  use : Nat
  label : List Byte
  payload : List Byte
deriving DecidableEq, Repr

/-- What the running key operation will deliver: material to stage, the check value of a test that passes, a failure code, or, for a
commit, its store. -/
inductive KeyRun where
  | stage (m : KeyMat)
  | test (kcv : Nat)
  | fail (code : Nat)
  | commit
deriving DecidableEq, Repr

/-- A running erasure (R338): the path that asked, if any, with the slot it selected, and the slots. -/
structure KeyErase where
  path : Option Nat
  sel : Nat
  slots : List Nat
deriving DecidableEq, Repr

/-- A plane's key block. `queue` holds the operations in arrival order, the first of which runs once `run` holds what it will
deliver; `bank` is the enrolment bank; `draws` counts DRBG draws; `cert` that the device certificate is
present. -/
structure KeysSt where
  slots : Tab KeySlot := []
  queue : List KeyReq := []
  run : Option KeyRun := none
  erase : List KeyErase := []
  rootOk : Bool := false
  bank : Nat := 0
  entropyFail : Bool := false
  draws : Nat := 0
  cert : Bool := true
deriving DecidableEq, Repr

/-- A crypto operation waiting for its turn (R340). -/
structure CryptoReq where
  path : Nat
  access : Tag
  op : Nat
  slot : Nat
  pre : Bool
  input : List Byte
deriving DecidableEq, Repr

/-- A plane's crypto block: the operations in arrival order, the first of which runs once `run` holds its code and output. -/
structure CryptoSt where
  queue : List CryptoReq := []
  run : Option (Nat × List Byte) := none
deriving DecidableEq, Repr

/-- States of a firmware slot (R346). -/
inductive FwState where
  | empty
  | valid
  | confirmed
  | trial
  | rejected
  | next
deriving DecidableEq, Repr

def FwState.num : FwState → Nat
  | .empty => 0
  | .valid => 1
  | .confirmed => 2
  | .trial => 3
  | .rejected => 4
  | .next => 5

/-- A firmware slot: its state and its image's envelope fields (R343). -/
structure FwSlot where
  st : FwState := .empty
  svn : Nat := 0
  step : Nat := 0
  version : Nat := 0
  keyId : Nat := 0
  digest : List Byte := []
deriving DecidableEq, Repr

/-- A load under way (R344): its path, target, bytes received, TT of the last data, and whether it is being verified. -/
structure ImgLoad where
  path : Nat
  program : Bool
  bytes : List Byte := []
  lastTt : Nat := 0
  verifying : Bool := false
deriving DecidableEq, Repr

/-- A plane's verifier, firmware slots (0 A, 1 B) and anti-rollback fuses. `peer` is a program image that waits for the standby's
verification (R345). -/
structure BootSt where
  fwA : FwSlot := { st := .confirmed }
  fwB : FwSlot := {}
  running : Nat := 0
  fc : Nat := 0
  revoked : BitVec 4 := 0
  load : Option ImgLoad := none
  peer : Option (List Byte) := none
deriving DecidableEq, Repr

/-! ### Tarn and the event recorder (chapter 15) -/

/-- An event record as staged (R368): type, tag, severity, the power-cycle count, operating time in 1/256 s, flags, sequence
number and body. -/
structure Rec where
  type : Nat
  tag : Tag
  sev : Nat
  cycles : Nat
  optime : Nat
  flags : Nat
  seq : Nat
  body : List Byte
deriving DecidableEq, Repr

/-- What a Tarn page holds. Pages of the reserve region and of the recorder hold words; the pages that hold the image of a
register page hold the words of its Tarn fields by byte offset; the other pages hold the objects of their regions. -/
inductive PageVal where
  | zero
  | words (w : Tab Word)
  | records (page fill : Nat) (chain : List Byte) (r : List (Nat × Nat × Rec))
  | energy (e : Tab Int) (carry : Tab Int) (intv : Nat) (residue : List (Int × Nat)) (commitS : Nat) (final : Bool)
  | program (bytes : List Byte) (consts : Tab Int)
  | scan (retained : Tab Int) (state : Tab Int) (progId tt : Nat) (clock : Option Nat) (final : Bool)
  | keys (k : List (Nat × List Byte))
  | passwords (p : List (Nat × List Byte))
  | helper (ok : Bool) (bank : Nat)
  | counts (cycles optime : Nat) (hwm hwmSecs : Nat)
deriving DecidableEq, Repr

/-- A shadow slot of a page (R355): the SSEQ of the store that wrote it, whether its CRC matches, and its image. -/
structure ShadowSlot where
  sseq : Nat := 0
  ok : Bool := true
  val : PageVal := .zero
deriving DecidableEq, Repr

/-- A running store (R359): its SSEQ, the pages still to write with the images captured at its start, whether it is the
power-fail store, and its start in ns of true time. -/
structure StoreRun where
  sseq : Nat
  todo : List (Nat × PageVal)
  count : Nat
  pf : Bool := false
  startTt : Nat := 0
deriving DecidableEq, Repr

/-- A plane's Tarn. `dirty` are the pages changed since they were stored; `groups` the earlier commit groups whose changes are
not all stored; `journal` the two cells (value, CRC matches); `next` the pages of the store to start next, `nextAll` that it
takes every dirty page; `fails` the failed unlocks by region × 2 + kind, `locked` the LOCKED passwords; `waitRun` and
`waitNext` what waits for the running and the next store: paths 0 to 8 a host group, 16 a key commit, 17 the energy group. -/
structure TarnSt where
  sram : Tab PageVal := []
  shadow : Tab (ShadowSlot × ShadowSlot) := []
  dirty : List Nat := []
  groups : List (List Nat) := []
  journal : List (Nat × Bool) := [(0, true), (0, true)]
  run : Option StoreRun := none
  next : List Nat := []
  nextAll : Bool := false
  nextPf : Bool := false
  lastSseq : Nat := 0
  fails : Tab Nat := []
  locked : List Nat := []
  waitRun : List Nat := []
  waitNext : List Nat := []
  lastPfOk : Bool := false
deriving DecidableEq, Repr

/-- A plane's event recorder. `staged` are the records not yet flushed, oldest first; `flushed` the surviving flushed records
with the PAGE_NOs in which each begins and ends; `page`, `fill` the page being filled and its bytes; `pageDigs` the record digests of
the page being filled, `fullPage` the newest full page and `prevChain` its CHAIN (R375); `lost` the records lost since room ran out. -/
structure EvrSt where
  staged : List Rec := []
  flushed : List (Nat × Nat × Rec) := []
  seqNext : Nat := 0
  page : Nat := 0
  fill : Nat := 0
  pageDigs : List (List Byte) := []
  prevChain : List Byte := []
  fullPage : Option Nat := none
  lost : Nat := 0
  cycles : Nat := 0
  optime : Nat := 0
  optFrac : Nat := 0
  sealTt : Nat := 0
  foundingFull : Bool := false
  wrapped : Bool := false
deriving DecidableEq, Repr

/-! ### The real-time clock (chapter 16) -/

/-- A plane's backup domain beyond its registers. `secs` counts seconds since 2000 (R383) and `subTt` is TT at the last second
boundary; `stopped` that the clock stands because its crystal does; `write` a staged write with its setter; `shift` a shift with its
setter, and whether its second has begun; `pwron` TT at which this clock's PWRON request ends; `perTt` and `perLen` the start and
length of the running period of each periodic unit. -/
structure RtcSt where
  secs : Nat := 0
  subTt : Nat := 0
  osf : Bool := true
  lost : Bool := true
  crystal : Bool := true
  stopped : Bool := false
  write : Option (Nat × Tag) := none
  shift : Option (Int × Tag) := none
  shifting : Bool := false
  pwron : Option Nat := none
  perTt : List Nat := [0, 0]
  perLen : List Nat := [256, 256]
deriving DecidableEq, Repr

/-! ### Basins and background work (chapter 17) -/

/-- A Basin: B_CFG, its power state (0 ON, 1 RETENTION, 2 OFF, 3 WAKING), FAULT, CLEARING, spare columns left, the ticks
left of a clear or wake, and conflicts per master. -/
structure BasinSt where
  cfg : Word
  st : Nat := 2
  fault : Bool := false
  clearing : Bool := false
  spares : Nat
  left : Nat := 0
  conf : List Nat := [0, 0, 0, 0, 0, 0, 0, 0, 0, 0]
deriving DecidableEq, Repr

/-- A master's answer in the last cycle (R401, R403, R407): data, stalled, write collided, refused or uncorrectable. -/
inductive BasinAnswer where
  | data (v : BitVec 64)
  | done
  | stalled
  | collided
  | refused
  | uncorrectable
deriving DecidableEq, Repr

/-- A plane's Basins: the contents as 64-bit words by Basin × 2^17 + word, and the answers of the last cycle by master. -/
structure MemSt where
  basins : Tab BasinSt := []
  words : Tab (BitVec 64) := []
  answers : List (Nat × BasinAnswer) := []
deriving DecidableEq, Repr

/-- A plane's background work: TT and stamp at which each activity last completed, TT at which each Basin was last scrubbed and
each port last checked for leakage, activities started by RUN.NOW, reserve blocks used per link in the half-cycle and on the larger link in the last one,
and background blocks that wait for room (R413). -/
structure BkgSt where
  doneTt : Tab Nat := []
  doneAt : Tab Nat := []
  scrubTt : Tab Nat := []
  leakTt : Tab Nat := []
  run : List Nat := []
  used : List Nat := [0, 0]
  lastUsed : Nat := 0
  waiting : Nat := 0
deriving DecidableEq, Repr

/-! ### Start-up, restart and faults (chapter 18) -/

/-- How a plane starts (R419, R439): START.CAUSE. -/
inductive StartCause where
  | powerOn
  | mainsReturn
  | moduleCmd
  | planeCmd
  | automatic
  | watchdog
deriving DecidableEq, Repr

def StartCause.num : StartCause → Nat
  | .powerOn => 0
  | .mainsReturn => 1
  | .moduleCmd => 2
  | .planeCmd => 3
  | .automatic => 4
  | .watchdog => 5

/-- A plane's start and power-fail state. `releaseTt` is TT at the release of reset; `zeroed` that a page of region 2, 3 or 4 was
recalled as zero (R425); `recallBad` the pages zeroed at the last recall; `pfAt` the stamp P of the power-fail sequence (R429); `fltTt` TT at which
the first plane fault was set; `autos` the clock seconds of the automatic restarts of the last hour (R436); `restart` the cause and requester of a
plane restart under way; `drillThen` the requester of a restart that waits for its Swap Drill; `relayTest` TT at which a
relay test ends; `restartTt` TT at which a restart began, `validTt` TT at TIME_VALID; `opening` that the data path has started and its first
boundary has not come; `rtcNew` that the backup domain lost its supply before this start. -/
structure StartSt where
  cause : StartCause := .powerOn
  cold : Bool := false
  releaseTt : Nat := 0
  zeroed : Bool := false
  recallBad : List Nat := []
  pfAt : Option Nat := none
  fltTt : Option Nat := none
  autos : List Nat := []
  restart : Option (StartCause × Tag) := none
  drillThen : Option Tag := none
  relayTest : Option Nat := none
  restartTt : Nat := 0
  validTt : Option Nat := none
  opening : Bool := false
  rtcNew : Bool := true
deriving DecidableEq, Repr

/-- A module restart asked for (R427): its boundary b, the mode, the requester, and how far it has come (0 waiting, 1 disabled, 2 shed). -/
structure ModuleRestart where
  at_ : Nat
  cold : Bool
  tag : Tag
  step : Nat := 0
  shedTt : Nat := 0
deriving DecidableEq, Repr

/-! ### A plane, the field side, the module -/

/-- How far a plane's start-up has come (R420, R422): unpowered, steps 1 to 4, steps 5 to 7, or READY. -/
inductive Phase where
  | unpowered
  | starting
  | recalled
  | ready
deriving DecidableEq, Repr

/-- A control plane. `regs` is the register image of every page with what its local and status fields hold, by byte address;
`applied` the applied configuration of the mirrored pages, tables, loop records and message memory. -/
structure Plane where
  id : PlaneId
  phase : Phase := .unpowered
  regs : Tab Word := []
  applied : Tab Word := []
  cfgQ : List QWrite := []
  grps : List CfgGroup := []
  nextGrp : Nat := 0
  paths : Tab PathState := []
  sess : Tab Session := []
  alias_ : Option (Tab Word) := none
  dataPath : Bool := false
  mpe : MpeSt := {}
  weir : WeirSt := {}
  points : Tab PointSt := []
  heads : Tab HeadSt := []
  meter : MeterSt := {}
  acct : AcctSt := {}
  pulses : Tab PulseSt := []
  red : RedSt := {}
  tarn : TarnSt := {}
  evr : EvrSt := {}
  canRx : Tab CanRx := []
  scan : ScanSt := {}
  loops : Tab LoopSt := []
  sections : Tab (Int × Int) := []
  keys : KeysSt := {}
  crypto : CryptoSt := {}
  boot : BootSt := {}
  rtc : RtcSt := {}
  mem : MemSt := {}
  bkg : BkgSt := {}
  start : StartSt := {}
deriving DecidableEq, Repr

/-- A block that the field side has sent to a plane (R119, R120): its link, the number of times it was sent, the stamp, and its 64 bytes. -/
structure FieldBlock where
  plane : PlaneId
  link : Nat
  tries : Nat
  at_ : Nat
  bytes : List Byte
deriving DecidableEq, Repr

/-- The field side (R22): its tick generator's measurement and P(c) in force in 1/16 ns (R69), the launch queue, what is under way with the stamp
at which it arrives (`due`: blocks and answers on the links, timed ends), the next LSEQ expected per plane and link, ports, power stage,
Authority Unit and pulse outputs. `lseqTx` counts the blocks sent per plane and link and `out`
holds those of the last ticks; `made` are the keys of standing firings made in an overlap and `ends` says, by slot, which command was last
released or removed, when, and whether it was released (R114, R118); `lostPorts` are ports that lost their link at the boundary of this stamp; `canFlt` that FIELD_FLT.CAN stands for no one connector (R435); `stopped` that a
module-stopping fault is present (R436); `relay` that the alarm relay is energised. -/
structure FieldSide where
  meas : CycleMeas := { period := 320000000, cross := 0, freq := 50000, ptp := 0 }
  per : Nat := 320000000
  lq : List Launch := []
  due : List (Nat × Instr) := []
  lseqRx : List Nat := [0, 0, 0, 0]
  lseqTx : List Nat := [0, 0, 0, 0]
  out : List FieldBlock := []
  made : List (Nat × Nat) := []
  ends : Tab (Option (Nat × Nat × Bool)) := []
  lostPorts : List Nat := []
  ports : Tab PortSt := []
  power : PowerSt := {}
  au : AuthUnit := {}
  pulses : Tab PulseOut := []
  waking : List (Nat × Nat × Nat) := []
  can : Tab CanChan := []
  supplies : Tab Supply := []
  canFlt : Bool := false
  upl : Tab Uplink := []
  phy : Tab PhySt := []
  fab : Fabric := {}
  pwron : Option Nat := none
  relay : Bool := false
  stopped : Bool := false
  restart : Option ModuleRestart := none
deriving DecidableEq, Repr

/-- The module. `pending` is the queue of waiting commands, first in, first out; `now` the current stamp (R7, R8); `fresh` the
model's own count of free values drawn. -/
structure State where
  pending : List Instr
  now : Nat
  fresh : Nat
  a : Plane
  b : Plane
  fs : FieldSide
deriving DecidableEq, Repr

/-- The module right after power-on, with reset released in both planes: nothing recalled yet, nothing listed in any table,
no lease held. (DESIGN CHOICE, unsafe: assumption 4.) -/
def State.reset : State :=
  { pending := [], now := 0, fresh := 0,
    a := { id := .a, phase := .starting }, b := { id := .b, phase := .starting }, fs := {} }

end Sys2Proof.Machine
end

