-- ==== Sys2Proof/Machine/Ops.lean ====
section
/-!
DEFINITION. The named operations over registers, planes, events, records and the store that every command uses.
-/
namespace Sys2Proof.Machine

/-! ### The register map -/

/-- The block of a page with its register rows and its first page (R41), or nothing for a page without a common header. -/
def blockOf (page : Nat) : Option (List RegDef × Nat) :=
  if page = 0x00 then some (regsSYS, 0x00) else if page = 0x01 then some (regsACCESS, 0x01)
  else if page = 0x02 then some (regsTENANT, 0x02) else if page = 0x04 then some (regsMPE, 0x04)
  else if page = 0x05 then some (regsPTP, 0x05) else if page = 0x08 then some (regsWEIR, 0x08)
  else if page = 0x09 then some (regsCMD, 0x09) else if page = 0x0A then some (regsACT, 0x0A)
  else if page = 0x0B then some (regsPMAP, 0x0B) else if page = 0x0C then some (regsLFAB, 0x0C)
  else if 0x10 ≤ page ∧ page ≤ 0x1F then some (regsPORTG, 0x10) else if page = 0x20 then some (regsPWR, 0x20)
  else if page = 0x24 then some (regsMETER, 0x24) else if page = 0x25 then some (regsTACC, 0x25)
  else if page = 0x26 then some (regsPULSE, 0x26) else if page = 0x28 then some (regsSCAN, 0x28)
  else if page = 0x29 then some (regsLOOP, 0x29) else if page = 0x2C then some (regsRED, 0x2C)
  else if page = 0x30 then some (regsSWF, 0x30) else if 0x31 ≤ page ∧ page ≤ 0x34 then some (regsUPL, 0x31)
  else if page = 0x35 then some (regsWAKE, 0x35) else if 0x38 ≤ page ∧ page ≤ 0x3F then some (regsCAN, 0x38)
  else if page = 0x40 then some (regsKEY, 0x40) else if page = 0x41 then some (regsCRYPTO, 0x41)
  else if page = 0x42 then some (regsBOOT, 0x42) else if page = 0x44 then some (regsTARN, 0x44)
  else if page = 0x45 then some (regsEVR, 0x45) else if page = 0x48 then some (regsRTC, 0x48)
  else if page = 0x4C then some (regsMEM, 0x4C) else if page = 0x4D then some (regsBKG, 0x4D)
  else if page = 0x50 then some (regsFAULT, 0x50) else none

/-- Pages that are table windows (R41, R53). -/
def isWindow (page : Nat) : Bool := 0x100 ≤ page && page ≤ 0x157

/-- Mapped pages (R41). -/
def mapped (page : Nat) : Bool := (blockOf page).isSome || isWindow page || page == 0x1F0

/-- Mirrored block pages and windows (R41). -/
def mirroredPage (page : Nat) : Bool :=
  isWindow page || [0x02, 0x04, 0x05, 0x08, 0x0A, 0x0B, 0x20, 0x24, 0x25, 0x26, 0x28, 0x29, 0x30, 0x31, 0x32, 0x33, 0x34,
    0x35].contains page || (0x10 ≤ page && page ≤ 0x1F) || (0x38 ≤ page && page ≤ 0x3F)

/-- The ID word of a page (R42). -/
def idWord (page : Nat) : Word :=
  match blockOf page with
  | some (_, first) => BitVec.ofNat 32 (first * 2 ^ 16 + 0x100 + (page - first))
  | none => 0

/-- A register found at an offset: its row, the instance, and whether the offset is its high word. -/
structure RegAt where
  row : RegDef
  idx : Nat
  high : Bool
deriving DecidableEq, Repr

/-- Whether a row covers offset `o`, and where. -/
def rowAt (r : RegDef) (o : Nat) : Option RegAt :=
  if o < r.off then none
  else
    let i := (o - r.off) / r.stride
    let d := (o - r.off) % r.stride
    if i ≥ r.cnt then none
    else if d = 0 then some ⟨r, i, false⟩
    else if r.wide && d == 4 then some ⟨r, i, true⟩
    else none

/-- The first row of a list that covers offset `o`. -/
def rowIn : List RegDef → Nat → Option RegAt
  | [], _ => none
  | r :: t, o => match rowAt r o with
    | some x => some x
    | none => rowIn t o

/-- The register at a byte address, if the block's chapter lists one (R40). -/
def regAt (a : Nat) : Option RegAt :=
  match blockOf (a / 0x1000) with
  | some (rows, _) => rowIn rows (a % 0x1000)
  | none => none

/-- What a word of the register image reads as while nothing has written it: its reset value, with the first-start value in
the fields recalled from the store (R21, R461). Loop records lie at pseudo-addresses from 0x400000 (their high and low
limits start at the ends of the range). (DESIGN CHOICE, unsafe: assumption 4.) -/
def regDefault (a : Nat) : Word :=
  if a ≥ 0x400000 then
    if a < 0x410000 ∧ a % 32 = 8 then 0x7FFFFFFF#32 else if a < 0x410000 ∧ a % 32 = 12 then 0x80000000#32 else 0
  else
    match regAt a with
    | some ⟨r, i, false⟩ => BitVec.ofNat 32 (r.reset ||| (if r.fsFirst && i != 0 then 0 else r.fs))
    | some ⟨_, _, true⟩ => 0
    | none => 0

/-- Bits of a word that hold configuration: RW and RWS bits of a mirrored page or of RED.AUTH (R55, R261), whole words of windows and
loop tables. A write of WO bits is queued with the others and leaves nothing behind; its pseudo-addresses from 0x460000 hold none. -/
def cfgMask (a : Nat) : Word :=
  if a ≥ 0x460000 then 0
  else if a ≥ 0x400000 then 0xFFFFFFFF#32
  else if isWindow (a / 0x1000) then (if a < 0x140000 then 0xFFFFFFFF#32 else 0)
  else if mirroredPage (a / 0x1000) ∨ a = Reg.RED_AUTH then
    match regAt a with
    | some ⟨r, _, _⟩ => if r.perPath then 0 else BitVec.ofNat 32 (r.rw ||| r.rws)
    | none => 0
  else 0

/-- Bits of a word that the store keeps (R21). STORE_SEQ is the journal's and FAULT.PF the power-fail store's own, recalled without a register image. -/
def tarnMask (a : Nat) : Word :=
  if a ≥ 0x460000 ∨ a = Reg.TARN_STORE_SEQ ∨ a = Reg.TARN_STORE_SEQ + 4 ∨ a = Reg.FAULT_PF then 0
  else if a ≥ 0x400000 then 0xFFFFFFFF#32
  else if isWindow (a / 0x1000) then cfgMask a
  else match regAt a with
    | some ⟨r, _, _⟩ => BitVec.ofNat 32 r.tarn
    | none => 0

/-! ### Registers of a plane -/

/-- The stored word at a byte address. -/
def Plane.rd (p : Plane) (a : Nat) : Word := Tab.get regDefault p.regs a

/-- Store a word. -/
def Plane.wr (p : Plane) (a : Nat) (w : Word) : Plane := { p with regs := Tab.put regDefault p.regs a w }

/-- The applied configuration at a byte address (R57). -/
def Plane.cfg (p : Plane) (a : Nat) : Word := Tab.get regDefault p.applied a

/-- A configuration word of the image: the applied one with the queued writes laid over it in the order in which they were made (R59). -/
def Plane.image (p : Plane) (a : Nat) : Word :=
  p.cfgQ.foldl (fun w q => if q.addr = a then merge (q.mask &&& cfgMask a) w q.data else w) (p.cfg a)

/-- Bring the configuration bits of a word of the image to what R59 asks. -/
def Plane.showCfg (p : Plane) (a : Nat) : Plane := p.wr a (merge (cfgMask a) (p.rd a) (p.image a))

/-- Field `[hi:lo]` of a stored word. -/
def Plane.rdF (p : Plane) (a hi lo : Nat) : Nat := fld (p.rd a) hi lo

/-- Field `[hi:lo]` of the applied configuration. -/
def Plane.cfgF (p : Plane) (a hi lo : Nat) : Nat := fld (p.cfg a) hi lo

/-- Set field `[hi:lo]` of a stored word. -/
def Plane.wrF (p : Plane) (a hi lo v : Nat) : Plane := p.wr a (setFld (p.rd a) hi lo v)

/-- Store a 64-bit value in a wide register (R49). -/
def Plane.wr64 (p : Plane) (a v : Nat) : Plane := (p.wr a (lo32 v)).wr (a + 4) (hi32 v)

/-- The 64-bit value of a wide register. -/
def Plane.rd64 (p : Plane) (a : Nat) : Nat := cat64 (p.rd (a + 4)) (p.rd a)

/-- Count one more in field `[hi:lo]`, stopping at its largest value. -/
def Plane.bump (p : Plane) (a hi lo : Nat) : Plane := p.wrF a hi lo (satInc (2 ^ (hi + 1 - lo) - 1) (p.rdF a hi lo))

/-- Set bit `n` of an event register (R19). -/
def Plane.evt (p : Plane) (a n : Nat) : Plane := p.wrF a n n 1

/-- Count a refused write in a page's ERR_CNT, which sets EVT.ERR (R44, R46). -/
def Plane.err (p : Plane) (page : Nat) : Plane := (p.bump (page * 0x1000 + 0x18) 15 0).evt (page * 0x1000 + 0xC) 0

/-! ### Planes of the module -/

/-- A plane by its name. -/
def State.plane (s : State) : PlaneId → Plane
  | .a => s.a
  | .b => s.b

/-- Replace a plane. -/
def State.setPlane (s : State) (i : PlaneId) (p : Plane) : State :=
  match i with
  | .a => { s with a := p }
  | .b => { s with b := p }

/-- Change a plane. -/
def State.upd (s : State) (i : PlaneId) (f : Plane → Plane) : State := s.setPlane i (f (s.plane i))

/-- Whether a plane runs: it has completed start-up (R420). -/
def Plane.running (p : Plane) : Bool := p.phase == .ready

/-- Whether a plane runs and has not begun its power-fail sequence (R430). -/
def Plane.live (p : Plane) : Bool := p.running && p.start.pfAt.isNone

/-- Change both planes that run: an input event or a report reaches both at one stamp (R23, R118). -/
def State.updBoth (s : State) (f : Plane → Plane) : State :=
  let s := if s.a.running then { s with a := f s.a } else s
  if s.b.running then { s with b := f s.b } else s

/-- Whether a plane is the active plane: its role follows the Authority Unit's reports (R27, R247). -/
def Plane.isActive (p : Plane) : Bool := p.red.role == .active

/-- The active plane, if any: the holder of the lease that knows its grant (R27); in an overlap the new holder. -/
def State.active? (s : State) : Option PlaneId :=
  match s.fs.au.holder with
  | some i => if (s.plane i).isActive then some i else if (s.plane i.other).isActive then some i.other else none
  | none => if s.a.isActive then some .a else if s.b.isActive then some .b else none

/-- Whether the standby runs in step (R239). -/
def State.standbyInStep (s : State) (i : PlaneId) : Bool := (s.plane i.other).red.role == .standby

/-- Whether a plane takes what the active plane sends it: a standby, and a plane that replays to catch up (R240, R256). -/
def Plane.follows (p : Plane) : Bool := p.red.role == .standby || (p.red.role == .resync && p.red.phase == 3)

/-- Whether the other plane follows a plane. -/
def State.followed (s : State) (i : PlaneId) : Bool := (s.plane i.other).follows

/-- Draw the next free value's number. (DESIGN CHOICE, safe: assumption 18.) -/
def State.draw (s : State) : Nat × State := (s.fresh, { s with fresh := s.fresh + 1 })

/-- Change the field side. -/
def State.field (s : State) (f : FieldSide → FieldSide) : State := { s with fs := f s.fs }

/-- The port's field-side state. -/
def FieldSide.port (f : FieldSide) (n : Nat) : PortSt := Tab.get (fun _ => {}) f.ports n

/-- Change a port's field-side state. -/
def FieldSide.setPort (f : FieldSide) (n : Nat) (x : PortSt) : FieldSide :=
  { f with ports := Tab.put (fun _ => {}) f.ports n x }

/-! ### Stamps (R7 to R9) -/

/-- The cycle number of a stamp. -/
def cycleOf (t : Nat) : Nat := t / 4096
/-- The tick within the cycle. -/
def tickOf (t : Nat) : Nat := t % 4096
/-- The index of the half-cycle that contains a stamp. -/
def halfOf (t : Nat) : Nat := t / 2048

/-- TT of a plane at the stamp `now`, in ns (R90). -/
def Plane.tt (p : Plane) (now : Nat) : Nat := (p.mpe.tt16 + tickOf now * p.mpe.per / 4096) / 16

/-- The plane whose time base the field side's timers follow: the active plane, otherwise a plane that runs (all count one
TT, R90). -/
def State.lead (s : State) : PlaneId :=
  match s.active? with
  | some i => i
  | none => if s.a.running then .a else if s.b.running then .b else .a

/-- TT as the field side's timers count it, in ns. -/
def State.ttNow (s : State) : Nat := (s.plane s.lead).tt s.now

/-! ### Digests -/

/-- The 32 bytes of an SM3 digest. -/
def sm3 (m : List Byte) : List Byte := (List.range 32).map (Config.sm3 m)

/-- One bit step of the reflected Castagnoli division. -/
def crcBit (poly c : Nat) : Nat := if c % 2 = 1 then (c / 2) ^^^ poly else c / 2

/-- One byte of a reflected CRC-32. -/
def crcByte (poly c : Nat) (b : Byte) : Nat :=
  (List.range 8).foldl (fun c _ => crcBit poly c) (c ^^^ b.toNat)

/-- CRC-32C of bytes: reflected, polynomial 0x1EDC6F41, all ones before and complemented after. (PRESUMED, unsafe: assumption 30.) -/
def crc32c (m : List Byte) : Nat := (m.foldl (crcByte 0x82F63B78) 0xFFFFFFFF) ^^^ 0xFFFFFFFF

/-- CRC-32 of ISO 3309 over bytes: reflected, polynomial 0x04C11DB7, all ones before and complemented after. (PRESUMED, unsafe: assumption 30.) -/
def crc32 (m : List Byte) : Nat := (m.foldl (crcByte 0xEDB88320) 0xFFFFFFFF) ^^^ 0xFFFFFFFF

/-! ### Tarn: commits and store requests (R357, R359, R361) -/

/-- A Tarn page as the SRAM holds it. -/
def TarnSt.page (t : TarnSt) (n : Nat) : PageVal := Tab.get (fun _ => .zero) t.sram n

/-- The shadow slots of a page. -/
def TarnSt.slots (t : TarnSt) (n : Nat) : ShadowSlot × ShadowSlot := Tab.get (fun _ => ({}, {})) t.shadow n

/-- Write a page's image into the slot with the lower SSEQ, a slot with a bad CRC counting as the lowest (R355). -/
def TarnSt.writeSlot (t : TarnSt) (n sseq : Nat) (v : PageVal) : TarnSt :=
  let (x, y) := t.slots n
  let kx := if x.ok then x.sseq + 1 else 0
  let ky := if y.ok then y.sseq + 1 else 0
  let new : ShadowSlot := { sseq := sseq, ok := true, val := v }
  { t with shadow := Tab.put (fun _ => ({}, {})) t.shadow n (if kx ≤ ky then (new, y) else (x, new)) }

/-- Insert a number into a rising list without repeats. -/
def insertNat (n : Nat) : List Nat → List Nat
  | [] => [n]
  | m :: r => if n < m then n :: m :: r else if n = m then m :: r else m :: insertNat n r

/-- Commit a group: its pages take their new content in one bus cycle. A page that a running store has captured and not yet
written is written to its slot first (R357, R359). -/
def TarnSt.commit (t : TarnSt) (pages : List (Nat × PageVal)) : TarnSt :=
  let names := pages.map Prod.fst
  let t := match t.run with
    | none => t
    | some r =>
      let first := r.todo.filter fun (e : Nat × PageVal) => names.contains e.1
      let t := first.foldl (fun (t : TarnSt) (e : Nat × PageVal) => t.writeSlot e.1 r.sseq e.2) t
      { t with run := some { r with todo := r.todo.filter fun (e : Nat × PageVal) => !names.contains e.1 } }
  { t with sram := Tab.putAll (fun _ => PageVal.zero) t.sram pages,
           dirty := names.foldl (fun d n => insertNat n d) t.dirty, groups := t.groups ++ [names] }

/-- Ask for a store of named pages; one requested while another runs is merged into the next (R359). -/
def TarnSt.request (t : TarnSt) (pages : List Nat) : TarnSt := { t with next := pages.foldl (fun d n => insertNat n d) t.next }

/-- Commit a group and have it stored (R361). -/
def TarnSt.commitStore (t : TarnSt) (pages : List (Nat × PageVal)) : TarnSt := (t.commit pages).request (pages.map Prod.fst)

/-- The page of copy `k` of an object larger than a group (R358); its own page holds the selector. (DEDUCED, unsafe: assumption 44.) -/
def objCopy (n k : Nat) : Nat := 14400 + 2 * (n - 14336) + k

/-- The copy in force, and the object it holds. -/
def TarnSt.objSel (t : TarnSt) (n : Nat) : Nat :=
  match t.page n with
  | .words w => (Tab.get (fun _ => 0) w 0).toNat % 2
  | _ => 0
def TarnSt.obj (t : TarnSt) (n : Nat) : PageVal := t.page (objCopy n (t.objSel n))

/-- Write an object as a second copy beside the one in force; a group of one page then switches the selector. `store` asks for both to be stored. -/
def TarnSt.commitObj (t : TarnSt) (n : Nat) (v : PageVal) (store : Bool) : TarnSt :=
  let k := 1 - t.objSel n
  let t := (t.commit [(objCopy n k, v)]).commit [(n, .words (Tab.put (fun _ => 0) [] 0 (BitVec.ofNat 32 k)))]
  if store then t.request [objCopy n k, n] else t

/-! ### The event recorder (R368, R369, R373 to R375) -/

/-- The 20-byte header and the padded body of a record (R368). -/
def Rec.bytes (r : Rec) : List Byte :=
  let body := r.body ++ List.replicate ((4 - r.body.length % 4) % 4) 0
  leBytes 2 (20 + body.length) ++ [BitVec.ofNat 8 r.type, BitVec.ofNat 8 (r.tag.toNat + 64 * r.sev)] ++
    leBytes 4 r.cycles ++ leBytes 6 r.optime ++ leBytes 2 r.flags ++ leBytes 4 r.seq ++ body

/-- A record's length in bytes. -/
def Rec.length (r : Rec) : Nat := 20 + (r.body.length + 3) / 4 * 4

/-- Bytes staged in the recorder's buffer. -/
def EvrSt.staging (e : EvrSt) : Nat := (e.staged.map Rec.length).sum

/-- The Tarn page that holds recorder page `n` (R374). -/
def recPage (n : Nat) : Nat := if n < 2048 then n else 2048 + (n - 2048) % 10240

/-- The seed of the chain (R375). -/
def chainSeed (id : PlaneId) : List Byte :=
  sm3 ([0x4B, 0x56, 0x58, 0x2D, 0x52, 0x45, 0x43, 0x4F, 0x52, 0x44, 0x45, 0x52] ++ leBytes 4 (Config.fuse 0).toNat ++
    [BitVec.ofNat 8 id.num])

/-- CHAIN of the page being filled (R375). -/
def EvrSt.chain (e : EvrSt) (id : PlaneId) : List Byte :=
  sm3 ((if e.page = 0 then chainSeed id else e.prevChain) ++ leBytes 4 e.page ++ e.pageDigs.flatten)

/-- Append one record to the stream: it starts in the page being filled and runs through bytes 0 to 4,055 of successive
pages. Its digest belongs to the page in which its last byte lies. -/
def EvrSt.append (e : EvrSt) (id : PlaneId) (r : Rec) : EvrSt :=
  let fillTo (e : EvrSt) : EvrSt :=
    { e with prevChain := e.chain id, pageDigs := [], fullPage := some e.page, page := e.page + 1, fill := 0,
             foundingFull := e.foundingFull || decide (e.page + 1 ≥ 2048),
             wrapped := e.wrapped || decide (e.page + 1 ≥ 12288) }
  let e := if e.fill ≥ 4056 then fillTo e else e
  let start := e.page
  let e := if e.fill + r.length > 4056 then { fillTo e with fill := e.fill + r.length - 4056 }
           else { e with fill := e.fill + r.length }
  { e with flushed := e.flushed ++ [(start, e.page, r)], pageDigs := e.pageDigs ++ [sm3 r.bytes] }

/-- Records that survive: those whose page has not been overwritten (R374). A record that begins in an overwritten page is
lost whole. -/
def EvrSt.survive (e : EvrSt) : EvrSt :=
  { e with flushed := e.flushed.filter fun x => decide (x.1 < 2048) || decide (e.page < x.1 + 10240) }

/-- The flushed records that begin in recorder page `n`. -/
def EvrSt.pageRecs (e : EvrSt) (n : Nat) : List (Nat × Nat × Rec) := e.flushed.filter fun x => x.1 = n

/-- Flush the staged records into recorder pages and have the pages stored (R373). -/
def Plane.flush (p : Plane) : Plane :=
  let first := p.evr.page
  let e := (p.evr.staged.foldl (fun e r => e.append p.id r) p.evr).survive
  let chain0 := if p.evr.page = 0 then chainSeed p.id else p.evr.prevChain
  let pages := ((List.range (e.page + 1 - first)).foldl (fun (x : List (Nat × PageVal) × List Byte) i =>
    let n := first + i
    let c := sm3 (x.2 ++ leBytes 4 n ++ ((e.flushed.filter fun r => r.2.1 = n).map fun r => sm3 r.2.2.bytes).flatten)
    (x.1 ++ [(recPage n, PageVal.records n (if n < e.page then 4056 else e.fill) c (e.pageRecs n))], c)) ([], chain0)).1
  let full := e.foundingFull && !p.evr.foundingFull
  let p := { p with evr := { e with staged := [] }, tarn := p.tarn.commitStore pages }
  let p := (p.bump Reg.EVR_FLUSH_CNT 15 0).evt Reg.EVR_EVT 8
  if full then p.evt Reg.EVR_EVT 10 else p

/-- Put one record into the buffer, which takes the next SEQ (R369, R373). -/
def Plane.stageRaw (p : Plane) (type : Nat) (tag : Tag) (sev : Nat) (priv : Bool) (body : List Byte) : Plane :=
  let r : Rec := { type := type, tag := tag, sev := sev, cycles := p.evr.cycles, optime := p.evr.optime,
                   flags := (if priv then 1 else 0) + 2 * p.id.num, seq := p.evr.seqNext, body := body }
  let p := { p with evr := { p.evr with staged := p.evr.staged ++ [r], seqNext := (p.evr.seqNext + 1) % 2 ^ 32 } }
  if sev = 3 then p.evt Reg.EVR_EVT 11 else p

/-- Have the recorder write a record (R373): lost where the buffer is full; otherwise staged, after a RECORDS_LOST record where
earlier ones were lost; the buffer is flushed once three quarters full. -/
def Plane.stage (p : Plane) (type : Nat) (tag : Tag) (sev : Nat) (body : List Byte) (priv : Bool := false) : Plane :=
  let need := 20 + (body.length + 3) / 4 * 4 + (if p.evr.lost = 0 then 0 else 24)
  if p.evr.staging + need > 262144 then
    ({ p with evr := { p.evr with lost := p.evr.lost + 1 } }.bump Reg.EVR_LOST_CNT 15 0).evt Reg.EVR_EVT 9
  else
    let p := if p.evr.lost = 0 then p
      else { p.stageRaw 0x05 0 2 false (leBytes 4 p.evr.lost) with evr.lost := 0 }
    let p := p.stageRaw type tag sev priv body
    if p.evr.staging ≥ 196608 then p.flush else p

/-! ### Fault flags (R434) -/

/-- Raise a flag on the FAULT page: reg 0 PLANE_FLT, 1 FIELD_FLT, 2 WARN. A flag already set stays as it is. -/
def Plane.raise (p : Plane) (reg n now : Nat) : Plane :=
  let a := if reg = 0 then Reg.FAULT_PLANE_FLT else if reg = 1 then Reg.FAULT_FIELD_FLT else Reg.FAULT_WARN
  if p.rdF a n n = 1 then p
  else
    let p := (((p.wrF a n n 1).evt Reg.FAULT_EVT (8 + reg)).bump Reg.FAULT_FLT_CNT 15 0).wr64 Reg.FAULT_LAST_AT now
    let p := p.stage 0x60 0 (if reg = 2 then 2 else 3) ([BitVec.ofNat 8 reg, BitVec.ofNat 8 n, 0, 0] ++ leBytes 8 now)
    let p := if reg = 0 ∧ p.start.fltTt = none then { p with start := { p.start with fltTt := some (p.tt now) } } else p
    if p.phase == .ready then p.flush else p

/-- Clear a field-fault or warning flag, which stages a FAULT_CLEARED record (R434). -/
def Plane.clearFlag (p : Plane) (reg n now : Nat) : Plane :=
  let a := if reg = 1 then Reg.FAULT_FIELD_FLT else Reg.FAULT_WARN
  if p.rdF a n n = 0 then p
  else (p.wrF a n n 0).stage 0x61 0 1 ([BitVec.ofNat 8 reg, BitVec.ofNat 8 n, 0, 0] ++ leBytes 8 now)

/-! ### Background activities (R412 to R415) -/

/-- The period of an activity in ns of TT; 8 cycles for the transparent test, 32 for telemetry. -/
def Plane.bkgPeriod (p : Plane) (act : Nat) : Nat :=
  [300000000000, p.mpe.per / 2, 3600000000000, 60000000000, 3600000000000, 2 * p.mpe.per].getD act 0

/-- TT at which an activity last completed, or at which the plane left reset. -/
def Plane.bkgLast (p : Plane) (act : Nat) : Nat := max (Tab.get (fun _ => 0) p.bkg.doneTt act) p.start.releaseTt

/-- Whether more than an activity's period has passed since it last completed. -/
def Plane.bkgLate (p : Plane) (act now : Nat) : Bool := decide (p.bkgLast act + p.bkgPeriod act < p.tt now)

/-- A background activity completes; completing within its period clears its DEFER bit. (DEDUCED, unsafe: assumption 50.) -/
def Plane.bkgDone (p : Plane) (act : Nat) (late : Bool) (now : Nat) : Plane :=
  { if late then p else p.wrF Reg.BKG_DEFER act act 0 with
    bkg := { p.bkg with doneTt := Tab.put (fun _ => 0) p.bkg.doneTt act (p.tt now), doneAt := Tab.put (fun _ => 0) p.bkg.doneAt act now,
                        run := p.bkg.run.filter fun a => a != act } }

/-- Whether an activity runs: enabled in CFG, the health check always, or started by RUN.NOW (R418). -/
def Plane.bkgOn (p : Plane) (act : Nat) : Bool := act == 4 || bit (p.rd Reg.BKG_CFG) act || p.bkg.run.contains act

/-- Whether a link has a reserve block left for background work: 64 a half-cycle, of the 6,554 that Weir holds back, after second re-sends and ABORT
blocks (R104, R413). -/
def Plane.bkgRoom (p : Plane) (link : Nat) : Bool :=
  decide (p.bkg.used.getD link 0 < 64) && decide (p.weir.reserve.getD link 0 + p.bkg.used.getD link 0 < 6554)

/-- A background report takes one reserve block of the half-cycle, or waits for the next half-cycle (R413). -/
def Plane.bkgBlock (p : Plane) : Plane :=
  match [0, 1].find? p.bkgRoom with
  | some l => { p with bkg := { p.bkg with used := p.bkg.used.set l (p.bkg.used.getD l 0 + 1) } }
  | none => { p with bkg := { p.bkg with waiting := p.bkg.waiting + 1 } }

/-- A new half-cycle's reserve, from which the background blocks that waited go first. -/
def Plane.rollReserve (p : Plane) : Plane :=
  let w := p.bkg.waiting
  let p := { p with weir := { p.weir with reserve := [0, 0] },
                    bkg := { p.bkg with used := [0, 0], lastUsed := max (p.bkg.used.getD 0 0) (p.bkg.used.getD 1 0), waiting := w - min w 128 } }
  (List.range (min w 128)).foldl (fun p _ => p.bkgBlock) p

end Sys2Proof.Machine
end

