-- ==== Sys2Proof/Machine/Points.lean ====
section
/-!
DEFINITION. Point Map entries and Action Table heads (chapter 5): reading an entry's fields, the checks of a completed
write, scaling, quality and substitution, and the forms of a head.
-/
namespace Sys2Proof.Machine

/-! ### Tags and objects in the register image (R301) -/

/-- The tag of a port, in a word reader of the register image or of the applied configuration. -/
def portTag (g : Nat → Word) (n : Nat) : Nat := fld (g (Reg.PORTG_CFG (n / 8) (n % 8))) 23 18
/-- The tag of a CAN channel. -/
def canTag (g : Nat → Word) (n : Nat) : Nat := fld (g (Reg.CAN_CFG n)) 13 8
/-- The tag of an auxiliary channel. -/
def auxTag (g : Nat → Word) (n : Nat) : Nat := fld (g (Reg.METER_AUX_CFG n)) 13 8
/-- Byte address of loop record `l`, word `k`, in the loop tables' own space (R235). -/
abbrev loopRec (l k : Nat) : Nat := 0x400000 + 32 * l + 4 * k
/-- The tag of a loop. -/
def loopTag (g : Nat → Word) (l : Nat) : Nat := fld (g (loopRec l 0)) 13 8
/-- Byte address of word `k` of Point Map entry `i` and of Action Table entry `j` (R53). -/
abbrev pmWord (i k : Nat) : Nat := 0x100000 + 16 * i + 4 * k
abbrev atWord (j k : Nat) : Nat := 0x120000 + 32 * j + 4 * k
/-- The tag bytes of the entries. -/
def pointTag (g : Nat → Word) (i : Nat) : Nat := fld (g (pmWord i 0)) 13 8
def entryTag (g : Nat → Word) (j : Nat) : Nat := fld (g (atWord j 0)) 21 16
/-- Whether tag `t` is active: T0 always (R318). -/
def tagActive (g : Nat → Word) (t : Nat) : Bool := t == 0 || (t < 63 && bit (g (Reg.TENANT_T t)) 16)
/-- Whether an uplink carries tag `t` (R131). -/
def uplCarries (g : Nat → Word) (u t : Nat) : Bool :=
  if t < 32 then bit (g (Reg.UPL_TAGS_LO u)) t else bit (g (Reg.UPL_TAGS_HI u)) (t - 32)

/-! ### Metering register numbers (R171, R172) -/

/-- Whether a number names a register. -/
def meterRegValid (r : Nat) : Bool :=
  let g := r / 4096
  let ch := r / 16 % 256
  let q := r % 16
  if g = 0 then ch < 3 || (ch == 3 && !([8, 9, 14, 15].contains q)) || (ch == 4 && (q == 9 || q == 15))
  else if g = 1 then ch < 12
  else if g = 2 then ch < 128 && (q == 0 || q == 8 || q == 9 || q == 10)
  else if g = 3 then ch < 63 && q < 7
  else if g = 4 then ch == 0 && q < 11
  else if g = 6 then r / 512 % 8 < 7 && r / 8 % 64 != 0 && r % 8 < 2
  else false

/-- Registers a pulse output may follow (R191). -/
def meterRegEnergy (r : Nat) : Bool :=
  let g := r / 4096
  let q := r % 16
  meterRegValid r && ((g < 2 && q < 8) || (g == 2 && q == 0) || (g == 3 && q < 6) || (g == 4 && q < 9))

/-- The tag of a metering register. -/
def meterRegTag (g : Nat → Word) (r : Nat) : Nat :=
  let ch := r / 16 % 256
  if r / 4096 = 1 then auxTag g ch else if r / 4096 = 2 then portTag g ch else if r / 4096 = 3 then ch else 0

/-! ### Point Map entries (R125) -/

/-- A Point Map entry's fields. -/
structure PmEntry where
  kind : Nat
  ide : Bool
  signed : Bool
  big : Bool
  top : Bool
  tag : Nat
  subst : Nat
  src : Nat
  dst : Nat
  sig : Nat
  mul : Int
  sh : Nat
  shTop : Nat
  stale : Nat
  ofs : Int
  safe : Int
deriving DecidableEq, Repr

/-- Read an entry from its 16 bytes. -/
def pmDecode (b : List Byte) : PmEntry :=
  let n (o k : Nat) : Nat := ofLe (slice b o k)
  { kind := n 0 1 % 16, ide := n 0 1 / 16 % 2 == 1, signed := n 0 1 / 32 % 2 == 1, big := n 0 1 / 64 % 2 == 1,
    top := n 0 1 / 128 == 1, tag := n 1 1 % 64, subst := n 1 1 / 64, src := n 2 2, dst := n 4 2, sig := n 6 2,
    mul := sext 16 (n 8 2), sh := n 10 1 % 32, shTop := n 10 1 / 32, stale := n 11 1, ofs := sext 16 (n 12 2),
    safe := sext 16 (n 14 2) }

/-- Entry `i` as a word reader holds it. -/
def pmEntry (g : Nat → Word) (i : Nat) : PmEntry := pmDecode (wordBytes ((List.range 4).map fun k => g (pmWord i k)))

/-- A CAN kind's identifier and channel (R126). -/
def PmEntry.canId (e : PmEntry) : Nat := (e.src + 65536 * e.dst) % 2 ^ 29
def PmEntry.canCh (e : PmEntry) : Nat := e.dst / 8192

/-- The data bits a CAN signal's descriptor names, most significant first for BIG, least significant first otherwise
(R126). -/
def sigBits (sig : Nat) (big : Bool) : List Nat :=
  let start := sig % 512
  let len := sig / 512 % 32 + 1
  if big then (List.range len).map fun i =>
    -- running down within the byte, then on at bit 7 of the next
    let down := 7 - start % 8 + i
    (start / 8 + down / 8) * 8 + (7 - down % 8)
  else (List.range len).map fun i => start + i

/-- Bytes of data a CAN signal needs. -/
def sigBytes (sig : Nat) (big : Bool) : Nat := (sigBits sig big).foldl (fun m b => max m (b / 8 + 1)) 0

/-- Read a CAN signal from data bytes. -/
def sigRead (sig : Nat) (big : Bool) (d : List Byte) : Nat :=
  let bitAt (b : Nat) : Nat := ((d.getD (b / 8) 0).toNat / 2 ^ (b % 8)) % 2
  let bs := sigBits sig big
  if big then bs.foldl (fun a b => a * 2 + bitAt b) 0 else bs.foldr (fun b a => bitAt b + 2 * a) 0

/-- Write data bit `b`. -/
def setDataBit (d : List Byte) (b v : Nat) : List Byte :=
  if b / 8 < d.length then d.set (b / 8) ((d.getD (b / 8) 0 &&& ~~~(1#8 <<< (b % 8))) ||| (BitVec.ofNat 8 v <<< (b % 8))) else d

/-- Write a CAN signal into data bytes; bits beyond the data are not written (R136). -/
def sigWrite (sig : Nat) (big : Bool) (d : List Byte) (v : Nat) : List Byte :=
  let bs := if big then (sigBits sig big).reverse else sigBits sig big
  (bs.zipIdx).foldl (fun d (b, i) => setDataBit d b (v / 2 ^ i % 2)) d

/-- The reason code for which an entry's content is refused (R132), or 0. (DESIGN CHOICE, unsafe: assumption 58.) -/
def pmReason (e : PmEntry) (active named : Bool) : Nat :=
  let z3 (ok : Bool) := if ok then 0 else 3
  let z4 (ok : Bool) := if ok then 0 else 4
  if e.kind > 10 then 1
  else if e.top || e.tag == 63 || e.subst == 3 || e.shTop != 0 || (e.ide && e.kind != 5 && e.kind != 6) || !active then 2
  else
    let canOk := e.ide || e.canId ≤ 0x7FF
    let r3 := match e.kind with
      | 0 => z3 (e.src == 0 && e.dst == 0)
      | 1 => z3 (e.src < 128)
      | 2 => z3 (e.src == 0 && e.dst == 0)
      | 3 => z3 (e.src < 128 && e.dst == 0)
      | 4 => z3 (e.src == 0 && e.dst < 128)
      | 5 => z3 canOk
      | 6 => z3 (e.src == 0 && e.dst == 0)
      | 7 => z3 (meterRegValid e.src && e.dst == 0)
      | 8 => z3 (((e.src < 8192 && named) || e.src == 0xFFFF) && e.dst < 512)
      | 9 => z3 (e.src < 512 && e.dst == 0)
      | _ => z3 (e.dst == 0)
    if r3 != 0 then r3
    else
      let r4 := match e.kind with
        | 1 => z4 (e.sig < 8192 && e.sig / 2048 < 3)
        | 3 => z4 (e.sig < 4)
        | 5 | 6 => z4 (e.sig < 16384 && sigBytes e.sig e.big ≤ 64)
        | 8 => z4 (e.sig < 3)
        | _ => z4 (e.sig == 0)
      if r4 != 0 then r4 else if e.stale != 0 && e.kind != 1 && e.kind != 5 then 4 else 0

/-- Whether every object an entry names carries the entry's tag, unless that is T0 (R131). `marker` gives the tag of a marker
word. -/
def pmTagsOk (g : Nat → Word) (marker : Nat → Nat) (e : PmEntry) : Bool :=
  e.tag == 0 || (match e.kind with
    | 1 | 3 => portTag g e.src == e.tag
    | 4 => portTag g e.dst == e.tag
    | 5 => canTag g e.canCh == e.tag
    | 7 => meterRegTag g e.src == e.tag
    | 8 => loopTag g e.dst == e.tag && (e.src == 0xFFFF || pointTag g e.src == e.tag)
    | 9 => loopTag g e.src == e.tag
    | 10 => marker e.src == e.tag
    | _ => true)

/-! ### Values (R127) -/

/-- Saturation to 32-bit signed. -/
def sat32 (v : Int) : Int := clampI (-2147483648) 2147483647 v

/-- 64-bit two's complement. -/
def wrap64 (v : Int) : Int := sext 64 (toTwos 64 v)

/-- The value of an input point from its raw value. -/
def PmEntry.scaleIn (e : PmEntry) (raw : Int) : Int :=
  if e.kind = 10 ∨ e.mul = 0 then sat32 raw else sat32 (wrap64 (wrap64 (raw * e.mul) / 2 ^ e.sh + e.ofs))

/-- The raw value of an output point from its value; a CAN signal saturates to its field. -/
def PmEntry.scaleOut (e : PmEntry) (value : Int) : Int :=
  let r := if e.kind = 10 ∨ e.mul = 0 then value else wrap64 (wrap64 ((value - e.ofs) * e.mul) / 2 ^ e.sh)
  if e.kind = 6 then
    let len := e.sig / 512 % 32 + 1
    if e.signed then clampI (-(2 ^ (len - 1) : Nat)) ((2 ^ (len - 1) : Nat) - 1) r else clampI 0 ((2 ^ len : Nat) - 1) r
  else sat32 r

/-- A raw field of `n` bits, sign-extended where the entry says so. -/
def PmEntry.rawField (e : PmEntry) (n v : Nat) : Int := if e.signed then sext n v else v

/-- Whether a kind is an input kind with a quality of its own (R129). -/
def inputKind (k : Nat) : Bool := [1, 3, 5, 7, 9].contains k

/-! ### Quality and substitution (R129, R130) -/

/-- A point of a plane. -/
def Plane.point (p : Plane) (i : Nat) : PointSt := Tab.get (fun _ => {}) p.points i

/-- Replace a point. -/
def Plane.setPoint (p : Plane) (i : Nat) (x : PointSt) : Plane :=
  { p with points := Tab.put (fun _ => {}) p.points i x }

/-- The applied entry of a point. -/
def Plane.pm (p : Plane) (i : Nat) : PmEntry := pmEntry p.cfg i

/-- The substitution value of a point. -/
def substValue (e : PmEntry) (x : PointSt) : Int :=
  if e.subst = 0 then x.last else if e.subst = 1 then e.safe else 0

/-- The value of a point wherever it is used: for an input kind the substitution value while it is BAD (R130); an output point holds the substitution value
until an image first writes it, and then what it was last written with (R129, R202). -/
def Plane.value (p : Plane) (i : Nat) : Int :=
  let x := p.point i
  if x.qual = 3 ∧ (inputKind (p.pm i).kind ∨ x.unwritten) then substValue (p.pm i) x else x.value

/-- The quality of a point: 0 none, 1 GOOD, 2 UNCERTAIN, 3 BAD. -/
def Plane.quality (p : Plane) (i : Nat) : Nat :=
  let k := (p.pm i).kind
  if k = 0 then 0 else if k = 8 ∨ k = 10 then 1 else (p.point i).qual

/-- Turn a point BAD, counting it (R129). -/
def Plane.pointBad (p : Plane) (i : Nat) : Plane :=
  if (p.point i).qual = 3 then p
  else ((((p.setPoint i { p.point i with qual := 3 }).bump Reg.PMAP_BAD_CNT 15 0).wrF Reg.PMAP_LAST_BAD 12 0 i).evt
    Reg.PMAP_EVT 9)

/-- Turn a point UNCERTAIN, counting it (R129). -/
def Plane.pointUncertain (p : Plane) (i : Nat) : Plane :=
  if (p.point i).qual = 1 then
    ((p.setPoint i { p.point i with qual := 2 }).bump Reg.PMAP_UNC_CNT 15 0).evt Reg.PMAP_EVT 10
  else p

/-- Refresh a point with a raw value: GOOD, from the event; a point without its station keeps its substitution (R129). -/
def Plane.refresh (p : Plane) (i : Nat) (raw : Int) : Plane :=
  let x := p.point i
  if x.lost then p
  else
    let v := (p.pm i).scaleIn raw
    p.setPoint i { x with raw := raw, value := v, qual := 1, age := 0, last := v }

/-- The indices of the applied entries that are not EMPTY. -/
def Plane.pointIdx (p : Plane) : List Nat :=
  ((p.applied.filter fun e => 0x100000 ≤ e.1 && e.1 < 0x120000 && e.1 % 16 == 0).map fun e => (e.1 - 0x100000) / 16).filter
    fun i => (p.pm i).kind != 0

/-- Apply `f` to every applied point that satisfies `q`, in rising index. -/
def Plane.forPoints (p : Plane) (q : PmEntry → Bool) (f : Plane → Nat → Plane) : Plane :=
  (p.pointIdx.filter fun i => q (p.pm i)).foldl f p

/-- A newly applied entry or one whose identity changed restarts BAD; a change of scaling alone re-scales the last raw value;
no change keeps everything (R129, R142). (DESIGN CHOICE, unsafe: assumption 58.) -/
def Plane.pointApply (p : Plane) (i : Nat) (old : PmEntry) : Plane :=
  let e := p.pm i
  if e = old then p
  else if e.kind = 0 then p.setPoint i {}
  else if e.kind ≠ old.kind ∨ e.src ≠ old.src ∨ e.dst ≠ old.dst ∨ e.sig ≠ old.sig ∨ e.tag ≠ old.tag ∨ e.ide ≠ old.ide ∨
      e.signed ≠ old.signed ∨ e.big ≠ old.big then
    let p := p.setPoint i {}
    if e.kind = 8 ∨ e.kind = 10 then p.setPoint i { qual := 1 } else (p.setPoint i { unwritten := !inputKind e.kind }).pointBad i
  else if inputKind e.kind then
    let x := p.point i
    if x.qual = 3 ∨ x.qual = 0 then p else p.setPoint i { x with value := e.scaleIn x.raw, last := e.scaleIn x.raw }
  else p

/-! ### Action Table heads (R133 to R136) -/

/-- A head's fields. -/
structure Head where
  kind : Nat
  en : Bool
  fire : Nat
  ctrlTop : Nat
  tag : Nat
  tagTop : Nat
  b3 : Nat
  path : Nat
  length : Nat
  timing : Nat
  subst : List Nat
  ident : Nat
  identTop : Nat
deriving DecidableEq, Repr

/-- Read a head from its 32 bytes. A CAN head has its identifier first and three descriptors, a FRAME head four. -/
def headDecode (b : List Byte) : Head :=
  let n (o k : Nat) : Nat := ofLe (slice b o k)
  let can := n 0 1 == 2
  { kind := n 0 1, en := n 1 1 % 2 == 1, fire := n 1 1 / 2 % 4, ctrlTop := n 1 1 / 8, tag := n 2 1 % 64, tagTop := n 2 1 / 64,
    b3 := n 3 1, path := n 4 2, length := n 6 2, timing := n 8 8,
    subst := if can then [n 20 4, n 24 4, n 28 4] else [n 16 4, n 20 4, n 24 4, n 28 4],
    ident := n 16 4 % 2 ^ 29, identTop := n 16 4 / 2 ^ 29 }

/-- The words of entry `j` in a word reader. -/
def atEntry (g : Nat → Word) (j : Nat) : List Word := (List.range 8).map fun k => g (atWord j k)
/-- Head `j`. -/
def atHead (g : Nat → Word) (j : Nat) : Head := headDecode (wordBytes (atEntry g j))

/-- Data bytes of a CAN DLC, classic or FD (ISO 11898-1). -/
def dlcBytes (dlc : Nat) : Nat :=
  if dlc ≤ 8 then dlc else [12, 16, 20, 24, 32, 48, 64].getD (dlc - 9) 64

/-- PERIODIC timing: OFFSET, EXP and PHASE. -/
def Head.offset (h : Head) : Nat := h.timing % 65536
def Head.exp (h : Head) : Nat := h.timing / 65536 % 16
def Head.phase (h : Head) : Nat := h.timing / 2 ^ 32 % 65536
/-- CAN LENGTH: DLC, IDE, FDF, BRS. -/
def Head.dlc (h : Head) : Nat := h.length % 16
def Head.ide (h : Head) : Bool := h.length / 256 % 2 == 1
def Head.fdf (h : Head) : Bool := h.length / 512 % 2 == 1
def Head.brs (h : Head) : Bool := h.length / 1024 % 2 == 1

/-- A head's data length (R135). -/
def Head.dataLen (h : Head) : Nat := if h.kind = 2 then dlcBytes h.dlc else h.length

/-- Whether a head takes the command's value: some descriptor of source CMDVAL (R95, R136). -/
def Head.hasCmdval (h : Head) : Bool := h.subst.any fun d => d / 65536 % 8 == 1

/-- The number of body entries a head owns. -/
def Head.bodies (h : Head) : Nat := (h.dataLen + 27) / 28

/-- Descriptor fields (R136). -/
def sdOfs (d : Nat) : Nat := d % 2048
def sdWidth (d : Nat) : Nat := 2 ^ (d / 2048 % 4)
def sdLittle (d : Nat) : Bool := d / 8192 % 2 == 1
def sdSrc (d : Nat) : Nat := d / 65536 % 8
def sdArg (d : Nat) : Nat := d / 524288

/-- Whether a descriptor has a bit that must be 0 set (reason 0x02). -/
def sdReserved (d : Nat) : Bool :=
  let src := sdSrc d
  d / 16384 % 4 != 0 || ((src == 1 || src == 4 || src == 5) && sdArg d != 0) || (src == 6 && sdArg d ≥ 2048)

/-- Whether a descriptor is invalid in a head (reason 0x06). The Point Map is read as it stands when the write completes. (DESIGN CHOICE, unsafe: assumption 58.) -/
def sdBad (h : Head) (g : Nat → Word) (d : Nat) : Bool :=
  if d = 0 then false
  else
    let w := sdWidth d
    let src := sdSrc d
    let pt := pmEntry g (sdArg d)
    let canPoint := h.kind == 2 && src == 2 && pt.kind == 6
    let zeros := sdOfs d == 0 && d / 2048 % 4 == 0 && !sdLittle d
    src == 0 || src == 7 ||
    (!canPoint && sdOfs d + w > h.dataLen) ||
    (src == 6 && (w != 2 || sdLittle d || h.kind == 2 || sdArg d ≥ h.length ||
      (h.subst.filter fun x => sdSrc x == 6).length != 1)) ||
    (canPoint && !zeros) || (src == 2 && !canPoint && zeros) ||
    (canPoint && (sigBits pt.sig pt.big).any fun b => b ≥ 8 * h.dataLen)

/-- The reason for which an Action Table entry is refused (R132 to R136), or 0. -/
def headReason (h : Head) (j : Nat) (g : Nat → Word) (bytes : List Byte) (active : Bool) : Nat :=
  let rest (o : Nat) : Bool := (bytes.drop o).all (· == 0)
  if h.kind > 3 then 1
  else if h.tag == 63 || h.tagTop != 0 || h.b3 != 0 || !active then 2
  else if h.kind = 0 then (if ofLe (slice bytes 1 1) == 0 && rest 4 then 0 else 2)
  else if h.kind = 3 then (if ofLe (slice bytes 1 1) == 0 then 0 else 2)
  else if h.ctrlTop != 0 || h.subst.any sdReserved || (h.kind == 2 && (h.identTop != 0 || h.length / 2048 != 0 || h.length / 16 % 16 != 0)) ||
      (h.fire == 2 && (ofLe (slice bytes 10 1) > 15 || slice bytes 11 1 != [0] || slice bytes 14 2 != [0, 0])) ||
      (h.fire == 0 && h.timing != 0) then 2
  else if (h.kind == 1 && !(h.path < 0x80 || (0x200 ≤ h.path && h.path ≤ 0x203))) ||
      (h.kind == 2 && !(0x300 ≤ h.path && h.path ≤ 0x307)) || (h.kind == 2 && !h.ide && h.ident > 0x7FF) then 3
  else if (h.kind == 1 && !(60 ≤ h.length && h.length ≤ 1518)) || (h.kind == 2 && !h.fdf && (h.dlc > 8 || h.brs)) ||
      j + h.bodies > 4095 then 5
  else if h.subst.any (sdBad h g) then 6
  else if h.fire == 3 || (h.fire == 2 && (h.offset > 2047 || h.phase ≥ 2 ^ h.exp)) then 7
  else 0

/-- Whether every object a head names carries its tag (R131). -/
def headTagsOk (g : Nat → Word) (h : Head) : Bool :=
  h.tag == 0 || h.kind == 0 || h.kind == 3 ||
    ((if h.path < 0x80 then portTag g h.path == h.tag
      else if h.path < 0x204 then uplCarries g (h.path - 0x200) h.tag
      else canTag g (h.path - 0x300) == h.tag) &&
     h.subst.all fun d => !(d != 0 && (sdSrc d == 2 || sdSrc d == 3)) || pointTag g (sdArg d) == h.tag)

/-- Whether a head is complete (R135): every entry it owns is a body entry with its tag, and the bytes beyond its data in the
last are 0. -/
def headComplete (g : Nat → Word) (j : Nat) : Bool :=
  let h := atHead g j
  (h.kind == 1 || h.kind == 2) && j + h.bodies ≤ 4095 &&
    (List.range h.bodies).all fun i =>
      let b := wordBytes (atEntry g (j + 1 + i))
      ofLe (slice b 0 1) == 3 && ofLe (slice b 2 1) == h.tag &&
        (i + 1 != h.bodies || (b.drop (4 + (h.dataLen - 28 * i))).all (· == 0))

/-- The data bytes of copied entries, head first (R135). -/
def bodyBytes (copy : List (List Word)) (n : Nat) : List Byte :=
  ((copy.drop 1).flatMap fun e => (wordBytes e).drop 4).take n

/-- Head `j` and its body entries, as Weir copies them (R105). -/
def atCopy (g : Nat → Word) (j : Nat) : List (List Word) :=
  (List.range ((atHead g j).bodies + 1)).map fun i => atEntry g (j + i)

end Sys2Proof.Machine
end

