-- ==== Sys2Proof/Machine/Weir.lean ====
section
/-!
DEFINITION. Weir: the booking model of R101, the decision of R105, standing bookings, command slots and their ends
(R111 to R118).
-/
namespace Sys2Proof.Machine

/-! ### Paths (R119) -/

/-- A channel's field-side state; an uplink's. -/
def FieldSide.chan (f : FieldSide) (n : Nat) : CanChan := Tab.get (fun _ => {}) f.can n
def FieldSide.setChan (f : FieldSide) (n : Nat) (x : CanChan) : FieldSide := { f with can := Tab.put (fun _ => {}) f.can n x }
/-- A connector's supply (R446), SUPPLY_OK of a channel, and whether a channel is off the bus: bus-off, or treated so for want of its supply (R435). -/
def FieldSide.supply (f : FieldSide) (c : Nat) : Supply := Tab.get (fun _ => {}) f.supplies c
def FieldSide.supplyOk (f : FieldSide) (n : Nat) : Bool := (f.supply (n / 2)).on && !f.canFlt
def FieldSide.chanOff (f : FieldSide) (n : Nat) : Bool := (f.chan n).fc == 2 || !f.supplyOk n
def FieldSide.uplink (f : FieldSide) (n : Nat) : Uplink := Tab.get (fun _ => {}) f.upl n
def FieldSide.setUplink (f : FieldSide) (n : Nat) (x : Uplink) : FieldSide :=
  { f with upl := Tab.put (fun _ => {}) f.upl n x }

/-- Whether a path is disabled in the applied configuration (R115, R275, R288, R297). -/
def pathDisabled (g : Nat → Word) (path : Nat) : Bool :=
  if path < 0x80 then !bit (g (Reg.PORTG_CFG (path / 8) (path % 8))) 0 || bit (g (Reg.SWF_PORT_CFG path)) 2
  else if path < 0x180 then !bit (g (Reg.PORTG_CFG ((path - 0x100) / 8) ((path - 0x100) % 8))) 0
  else if path < 0x204 then !bit (g (Reg.UPL_CTRL (path - 0x200))) 0
  else
    let n := path - 0x300
    !bit (g (Reg.CAN_CTRL n)) 0 || bit (g (Reg.CAN_CFG n)) 0 || (List.range 4).all fun k => g (Reg.CAN_DIR n k) == 0

/-- Whether a path is down for an admission: no link, uplink down, channel bus-off (R108). -/
def pathDown (f : FieldSide) (path : Nat) : Bool :=
  if f.stopped then true
  else if path < 0x80 then !(f.port path).link
  else if path < 0x180 then false
  else if path < 0x204 then !(f.uplink (path - 0x200)).link
  else f.chanOff (path - 0x300)

/-- Whether a path stops its heads and loop launches at a boundary: it is down, or an overload shed has taken its port (R141, R163). -/
def pathStops (f : FieldSide) (path : Nat) : Bool := pathDown f path || (decide (path < 0x80) && (f.port path).st == .shed)

/-- Whether a port's PSE controller reports a fault (R153). -/
def PortSt.pseFault (x : PortSt) : Bool := x.st == .fault && x.fault == 5

/-- Whether a launch finds its path down at its tick: no link, a PSE fault or a shed port, or an uplink down (R100, R163). A port in FAULT for another cause
takes its PSE state changes (R153). (DEDUCED, unsafe: assumption 31.) -/
def pathFails (f : FieldSide) (path : Nat) : Bool :=
  if path < 0x80 then !(f.port path).link || (f.port path).pseFault || (f.port path).st == .shed
  else if path < 0x180 then (f.port (path - 0x100)).pseFault
  else if path < 0x204 then !(f.uplink (path - 0x200)).link
  else false

/-- The tag a path's object carries in the applied configuration, where it carries one (R107). -/
def pathTagOk (g : Nat → Word) (path tag : Nat) : Bool :=
  if path < 0x80 then portTag g path == tag
  else if path < 0x180 then portTag g (path - 0x100) == tag
  else if path < 0x204 then uplCarries g (path - 0x200) tag
  else canTag g (path - 0x300) == tag

/-! ### CAN durations (R286, R287) -/

/-- Clock periods of 25 ns in a nominal and in a data bit. -/
def nbtClocks (w : Word) : Nat := (fld w 4 0 + 1) * (1 + (fld w 12 5 + 1) + (fld w 19 13 + 1))
def dbtClocks (w : Word) : Nat := (fld w 4 0 + 1) * (1 + (fld w 9 5 + 1) + (fld w 13 10 + 1))

/-- Nominal and data bits of a frame at its worst (R287). -/
def canBits (ide fdf brs : Bool) (n : Nat) : Nat × Nat :=
  if !fdf then (if ide then 54 + 8 * n + (53 + 8 * n) / 4 + 13 else 34 + 8 * n + (33 + 8 * n) / 4 + 13, 0)
  else
    let a := if ide then 36 else 17
    let sd := (a + 4 + 8 * n) / 4 - (a - 1) / 4
    let nb := a + (a - 1) / 4 + 13
    let d := 5 + 8 * n + sd + 4 + (if n ≤ 16 then 17 else 21) + (if n ≤ 16 then 6 else 7)
    if brs then (nb, d) else (nb + d, 0)

/-- A frame's worst-case duration in ns on channel `n`. -/
def canNs (g : Nat → Word) (ch : Nat) (ide fdf brs : Bool) (n : Nat) : Nat :=
  let (nb, d) := canBits ide fdf brs n
  25 * (nb * nbtClocks (g (Reg.CAN_NBT ch)) + d * dbtClocks (g (Reg.CAN_DBT ch)))

/-- A duration in whole µs and in ticks of 3.66 µs, both rounded up (R101). -/
def canUs (ns : Nat) : Nat := (ns + 999) / 1000
def canTicks (ns : Nat) : Nat := (ns + 3659) / 3660

/-- CAN_BUDGET_n.BLOCK (R287). -/
def canBlock (g : Nat → Word) (ch : Nat) : Nat := canTicks (canNs g ch true true true 64)

/-- A path's allowance (R98). -/
def allowance (g : Nat → Word) (path : Nat) : Nat :=
  if 0x200 ≤ path ∧ path < 0x204 then fld (g (Reg.WEIR_UPL_ALLOW (path - 0x200))) 7 0
  else if 0x300 ≤ path then canBlock g (path - 0x300)
  else 0

/-! ### The booking model (R101, R102) -/

/-- What a launch needs: its path, Launch Fabric blocks, and CAN duration. -/
structure Need where
  path : Nat
  blocks : Nat
  us : Nat := 0
  ticks : Nat := 0
deriving DecidableEq, Repr

/-- The needs of an action (R102). -/
def actionNeed (g : Nat → Word) : Action → Need
  | .pse port _ => { path := 0x100 + port, blocks := 1 }
  | .can ch _ ide dlc _ =>
    let ns := canNs g ch ide false false dlc
    { path := 0x300 + ch, blocks := 1, us := canUs ns, ticks := canTicks ns }
  | .table _ _ copy =>
    let h := headDecode (wordBytes (copy.headD []))
    if h.kind = 2 then
      let ns := canNs g (h.path - 0x300) h.ide h.fdf h.brs h.dataLen
      { path := h.path, blocks := if h.dataLen > 32 then 2 else 1, us := canUs ns, ticks := canTicks ns }
    else { path := h.path, blocks := (h.length + 39) / 40 }

/-- Bookings in half-cycle `k`. -/
def inHalf (bs : List Booking) (k : Nat) : List Booking := bs.filter fun b => halfOf b.tick == k

/-- The blocks that a booking takes on a link: first sends on the link it names and as many reserved re-sends on the other (R102); both on
its own where that was the only live one (R121). -/
def Booking.load (b : Booking) (link : Nat) : Nat :=
  if b.solo then (if b.link = link then 2 * b.blocks else 0) else b.blocks

/-- Blocks booked on a link in half-cycle `k`, with the reserved re-sends. -/
def linkBooked (w : WeirSt) (k link : Nat) : Nat := ((inHalf w.books k).map fun b => b.load link).sum

/-- The capacity of a link per half-cycle (R101). -/
def linkCap : Nat := 124518

/-- Whether the blocks of a launch fit the links in half-cycle `k`. With both links up each takes the blocks, as sends on one
and reserved re-sends on the other. -/
def linkFits (w : WeirSt) (k blocks : Nat) : Bool :=
  if w.linkUp.all id then (linkBooked w k 0 + blocks ≤ linkCap) && (linkBooked w k 1 + blocks ≤ linkCap)
  else (List.range 2).any fun l => w.linkUp.getD l false && linkBooked w k l + 2 * blocks ≤ linkCap

/-- The link that carries a launch's first sends: the one with more free capacity, link 0 if equal (R102). -/
def linkFor (w : WeirSt) (k : Nat) : Nat :=
  if !w.linkUp.getD 0 false && w.linkUp.getD 1 false then 1
  else if !w.linkUp.getD 1 false then 0
  else if linkBooked w k 0 ≤ linkBooked w k 1 then 0 else 1

/-- The detail code of the first resource that a launch lacks at tick `t`, or 0 where it fits (R101, R110, R269). -/
def lacks (g : Nat → Word) (f : FieldSide) (w : WeirSt) (n : Need) (t : Nat) : Nat :=
  let k := halfOf t
  let near (d : Nat) (b : Booking) : Bool := b.path == n.path && b.tick < t + d && t < b.tick + d
  let here := (inHalf w.books k).filter fun b => b.path == n.path
  let r :=
    if n.path < 0x80 then
      if here.length ≥ 4 then 0x40
      else if w.books.any (near (if (f.port n.path).rate == 1000 then 4 else 34)) then 0x41 else 0
    else if n.path < 0x180 then
      let grp := (n.path - 0x100) / 8
      let inGroup := (inHalf w.books k).filter fun b => 0x100 ≤ b.path && b.path < 0x180 && (b.path - 0x100) / 8 == grp
      if inGroup.length ≥ 2 ∨ here.length ≥ 1 then 0x44 else 0
    else if n.path < 0x204 then
      let ten := (f.uplink (n.path - 0x200)).rate
      if here.length ≥ (if ten then 64 else 16) then 0x42
      else if w.books.any (near (if ten then 1 else 5)) then 0x42 else 0
    else
      let used := (here.map fun b => b.canUs).sum
      let busy := w.books.any fun b => b.path == n.path && b.tick < t + n.ticks && t < b.tick + b.canTicks
      if used + n.us > min 7125 (fld (g (Reg.WEIR_CAN_BUDGET (n.path - 0x300))) 12 0) ∨ busy then 0x43 else 0
  if r ≠ 0 then r else if linkFits w k n.blocks then 0 else 0x45

/-- Whether every resource is free at tick `t`. -/
def fits (g : Nat → Word) (f : FieldSide) (w : WeirSt) (n : Need) (t : Nat) : Bool := lacks g f w n t == 0

/-- Book a launch at a tick. -/
def WeirSt.book (w : WeirSt) (src : LaunchSrc) (n : Need) (t : Nat) (recov : Bool := false) : WeirSt :=
  { w with books := w.books ++ [{ src := src, tick := t, path := n.path, link := linkFor w (halfOf t), blocks := n.blocks,
                                  canUs := n.us, canTicks := n.ticks, recov := recov, solo := !w.linkUp.all id }] }

/-- Release a source's bookings that satisfy `q`. -/
def WeirSt.unbook (w : WeirSt) (src : LaunchSrc) (q : Booking → Bool := fun _ => true) : WeirSt :=
  { w with books := w.books.filter fun b => !(b.src == src && q b) }

/-- The first tick from `t` on, among `fuel`, that satisfies `q`. -/
def searchTick (q : Nat → Bool) : Nat → Nat → Option Nat
  | 0, _ => none
  | fuel + 1, t => if q t then some t else searchTick q fuel (t + 1)

/-! ### Slots -/

/-- A command slot of a plane. -/
def Plane.slot (p : Plane) (n : Nat) : Slot := Tab.get (fun _ => {}) p.weir.slots n

/-- Replace a slot. -/
def Plane.setSlot (p : Plane) (n : Nat) (x : Slot) : Plane :=
  { p with weir := { p.weir with slots := Tab.put (fun _ => {}) p.weir.slots n x } }

/-- Change a plane's Weir. -/
def Plane.updWeir (p : Plane) (f : WeirSt → WeirSt) : Plane := { p with weir := f p.weir }

/-- Slots in a state that satisfies `q`, in rising order. -/
def Plane.slotsIn (p : Plane) (q : Slot → Bool) : List Nat := (p.weir.slots.filter fun e => q e.2).map Prod.fst

/-- Slots not FREE (WEIR.INFLIGHT). -/
def Plane.inFlight (p : Plane) : Nat := (p.slotsIn fun x => x.st != .free).length

/-- Whether commands wait or fly: BOOKED, SENT or LAUNCHED. -/
def Slot.alive (x : Slot) : Bool := x.st == .booked || x.st == .sent || x.st == .launched

/-- A delivery failure of a scan command (R216): its origin, Weir's refusal code or 0, and its final state or 0. -/
def Plane.deliveryFail (p : Plane) (origin code st : Nat) : Plane :=
  let p := { p with scan := { p.scan with dfails := p.scan.dfails + 1 } }
  ((p.bump Reg.SCAN_DFAIL_CNT 15 0).wr Reg.SCAN_LAST_DFAIL
    (BitVec.ofNat 32 (origin + code * 2 ^ 16 + st * 2 ^ 24))).evt Reg.SCAN_EVT 13

/-- The Scan Engine's queue once a command of an origin has been decided. -/
def WeirSt.scanTaken (w : WeirSt) (origin : Nat) : WeirSt := { w with scanQ := w.scanQ.eraseP fun q => q.origin == origin }

/-- A command reaches a final state (R113): DONE, the stamp, and for a break its counts, events and record; its bookings are
released. A scan command that does not end DELIVERED is a delivery failure (R216). -/
def Plane.finish (p : Plane) (n : Nat) (st : SlotState) (cause at_ : Nat) : Plane :=
  let x := p.slot n
  let p := (p.setSlot n { x with st := st, cause := cause, doneAt := at_, done := true }).updWeir fun w =>
    w.unbook (LaunchSrc.slot n)
  let p := { p with weir := { p.weir with tx := p.weir.tx.filter fun b => b.src != LaunchSrc.slot n } }
  let p := p.evt Reg.CMD_EVT 8
  let p := if st = .broken then
      let p := ((p.bump Reg.WEIR_BROKEN_CNT 15 0).evt Reg.CMD_EVT 9).evt Reg.WEIR_EVT 9
      p.stage 0x10 x.tag 2 ([BitVec.ofNat 8 n, BitVec.ofNat 8 cause, BitVec.ofNat 8 x.g1.toNat, 0] ++ leBytes 4 x.seq ++
        leBytes 8 x.launch)
    else p
  match x.scan with
  | none => p
  | some origin => if st = .delivered ∨ st = .free then p else p.deliveryFail origin 0 st.num

/-- Break a command that has not reached a final state (R100). -/
def Plane.break_ (p : Plane) (n cause at_ : Nat) : Plane :=
  if (p.slot n).alive then p.finish n .broken cause at_ else p

/-- Break every command that satisfies `q`. -/
def Plane.breakAll (p : Plane) (q : Slot → Bool) (cause at_ : Nat) : Plane :=
  (p.slotsIn fun x => x.alive && q x).foldl (fun p n => p.break_ n cause at_) p

/-- Cancel the BOOKED and SENT commands that satisfy `q` (R115). -/
def Plane.cancelAll (p : Plane) (q : Slot → Bool) (at_ : Nat) : Plane :=
  (p.slotsIn fun x => (x.st == .booked || x.st == .sent) && q x).foldl (fun p n => p.finish n .cancelled 0 at_) p

/-! ### The decision (R105 to R110) -/

/-- A decided submission: its code, detail, slot, and, where accepted, the booked tick, the recovery tick and the slot's new
content. -/
structure Verdict where
  code : Nat
  detail : Nat
  slot : Nat
  accept : Option (Slot × Need)
deriving DecidableEq, Repr

/-- The action a record names, with the entry copied from the applied table (R95, R105). (DESIGN CHOICE, unsafe: assumption 58.) -/
def recAction (g : Nat → Word) (r : List Byte) : Action :=
  let n (o k : Nat) : Nat := ofLe (slice r o k)
  let kind := n 1 1 / 4 % 4
  if kind = 0 then .table (n 20 4 % 4096) (n 24 8) (atCopy g (n 20 4 % 4096))
  else if kind = 1 then .pse (n 20 4 % 128) (n 20 4 / 256 % 2 == 1)
  else .can (n 20 4 / 2 ^ 29) (n 20 4 % 2 ^ 29) (n 3 1 / 64 % 2 == 1) (n 1 1 / 16) (slice r 24 (n 1 1 / 16))

/-- The format detail of a record (R106), or 0. `scan` holds for a record of the Scan Engine. (DESIGN CHOICE, unsafe: assumption 58.) -/
def recFormat (g : Nat → Word) (p : Plane) (scan : Bool) (r : List Byte) : Nat :=
  let n (o k : Nat) : Nat := ofLe (slice r o k)
  let kind := n 1 1 / 4 % 4
  let slot := n 2 1
  let zero (o k : Nat) : Bool := n o k == 0
  if n 0 1 ≠ 1 then 0x01
  else if kind = 3 || n 3 1 / 128 != 0 || (kind != 2 && (n 1 1 / 16 != 0 || n 3 1 / 64 != 0)) ||
      (kind == 0 && n 20 4 / 4096 != 0) || (kind == 1 && (n 20 4 &&& 0xFFFFFE80 != 0 || !zero 24 8)) ||
      (kind == 0 && headComplete g (n 20 4 % 4096) && !(atHead g (n 20 4 % 4096)).hasCmdval && !zero 24 8) ||
      (kind == 2 && n 1 1 / 16 ≤ 8 && !zero (24 + n 1 1 / 16) (8 - n 1 1 / 16)) then 0x02
  else if (p.slot slot).st != .free then 0x03
  else if !scan && slot ≥ 256 - min 192 p.weir.scanSlots then 0x04
  else if kind == 0 && !headComplete g (n 20 4 % 4096) then 0x05
  else if n 1 1 % 2 == 1 && n 4 8 != 0 then 0x06
  else if kind == 2 && n 1 1 / 16 > 8 then 0x07
  else 0

/-- The tag detail of a record (R107), or 0. -/
def recShore (g : Nat → Word) (accessTag : Nat) (r : List Byte) (a : Action) : Nat :=
  let tag := ofLe (slice r 3 1) % 64
  if tag = 63 ∨ accessTag = 63 then 0x12
  else if tag ≠ accessTag ∧ accessTag ≠ 0 then 0x10
  else match a with
    | .table i _ _ =>
      let h := atHead g i
      if (tag ≠ 0 ∧ h.tag ≠ tag) ∨ (0x200 ≤ h.path ∧ h.path < 0x204 ∧ h.tag ≠ 0 ∧ !uplCarries g (h.path - 0x200) h.tag) then 0x11 else 0
    | .pse port _ => if tag ≠ 0 ∧ portTag g port ≠ tag then 0x11 else 0
    | .can ch _ _ _ _ => if tag ≠ 0 ∧ canTag g ch ≠ tag then 0x11 else 0

/-- The disabling condition of R108 that holds, by its detail, or 0. -/
def recDisabled (g : Nat → Word) (f : FieldSide) (p : Plane) (g1 : Bool) (a : Action) (path : Nat) : Nat :=
  let headOff := match a with
    | .table i _ _ => !(atHead g i).en
    | _ => false
  let pseOn := match a with
    | .pse _ on => on
    | _ => false
  if !bit (g Reg.WEIR_CTRL) 0 || p.weir.stopped || p.rdF Reg.FAULT_FIELD_FLT 11 10 != 0 then 0x20
  else if !p.isActive then 0x21
  else if !p.mpe.timeValid then 0x22
  else if p.mpe.realign then 0x23
  else if p.weir.supplyShed || (pseOn && p.mpe.slw) then 0x24
  else if headOff || pathDisabled g path then 0x25
  else if pathDown f path then 0x26
  else if g1 && p.weir.modePending then 0x27
  else 0

/-- Weir's decision on a record at stamp `s` (R105). (DEDUCED, unsafe: assumption 32.) -/
def decide_ (p : Plane) (f : FieldSide) (sub : Submission) (s : Nat) : Verdict :=
  let g := p.cfg
  let r := sub.record
  let n (o k : Nat) : Nat := ofLe (slice r o k)
  let slot := n 2 1
  let scan := sub.path == 9
  let no (code detail : Nat) : Verdict := { code := code, detail := detail, slot := slot, accept := none }
  let a := recAction g r
  let fmt := recFormat g p scan r
  if fmt ≠ 0 then no 0x24 fmt
  else
    let sh := recShore g sub.tag.toNat r a
    if sh ≠ 0 then no 0x22 sh
    else
      let need := actionNeed g a
      let g1 := n 1 1 / 2 % 2 == 1
      let dis := recDisabled g f p g1 a need.path
      if dis ≠ 0 then no 0x23 dis
      else
        let w := p.weir
        let allow := allowance g need.path
        let h := halfOf s
        let lo := max (max ((h + 1) * 2048) (s + 16)) (if p.rd64 Reg.RED_CLAIM_AT > s then p.rd64 Reg.RED_CLAIM_AT else 0)
        let hi := (h + 64 - (if g1 then w.gapMax else 0)) * 2048 + 2047
        let slack := allow + (if g1 then w.g1Slack * 2048 else 0)
        let deadline := n 12 8
        let launch := n 4 8
        let early := n 1 1 % 2 == 1
        let recov (t : Nat) : Nat := t + w.gapMax * 2048
        let ok (t : Nat) : Bool := fits g f w need t && (!g1 || fits g f w need (recov t))
        let accept (t : Nat) : Verdict :=
          { code := 0x10, detail := 0, slot := slot,
            accept := some ({ st := .booked, tag := BitVec.ofNat 6 (n 3 1), g1 := g1, earliest := early, seq := w.nextSeq,
                              launch := t, recovery := if g1 then some (recov t) else none, deadline := deadline,
                              path := need.path, action := a, scan := if scan then some sub.origin else none }, need) }
        -- last = min(hi, DEADLINE − slack); a DEADLINE below the slack lies before every tick
        if early then
          if deadline < slack ∨ min hi (deadline - slack) < lo then
            no 0x21 (if hi < lo then 0x31 else 0x32)
          else
            let last := min hi (deadline - slack)
            match searchTick ok (last + 1 - lo) lo with
            | some t => accept t
            | none => no 0x20 0x4F
        else if launch < lo then no 0x21 0x30
        else if launch > hi then no 0x21 0x31
        else if deadline < slack ∨ launch > deadline - slack then no 0x21 0x32
        else
          let l := lacks g f w need launch
          if l ≠ 0 then no 0x20 l
          else if g1 && !fits g f w need (recov launch) then no 0x20 0x46
          else accept launch

/-- Take an acceptance into a plane: the slot, its bookings and the next CMD_SEQ (R105, R109). -/
def Plane.takeSlot (p : Plane) (n : Nat) (x : Slot) (need : Need) : Plane :=
  let p := p.setSlot n x
  let w := p.weir.book (.slot n) need x.launch
  let w := match x.recovery with
    | some t => w.book (.slot n) need t true
    | none => w
  { p with weir := { w with nextSeq := (x.seq + 1) % 2 ^ 32 } }

/-! ### Standing bookings (R103, R140) -/

/-- The firing ticks of a head in half-cycle `k`. -/
def headTick (h : Head) (k : Nat) : Option Nat :=
  if h.fire = 2 then (if k % 2 ^ h.exp = h.phase then some (k * 2048 + h.offset) else none)
  else if h.fire = 1 then (if halfOf h.timing = k then some h.timing else none)
  else none

/-- The needs of a head as applied. -/
def headNeed (g : Nat → Word) (j : Nat) : Need := actionNeed g (.table j 0 (atCopy g j))

/-- A plane's head state. -/
def Plane.head (p : Plane) (j : Nat) : HeadSt := Tab.get (fun _ => {}) p.heads j
def Plane.setHead (p : Plane) (j : Nat) (x : HeadSt) : Plane := { p with heads := Tab.put (fun _ => {}) p.heads j x }

/-- Heads ARMED or PARKED. -/
def Plane.standing (p : Plane) : List Nat :=
  (p.heads.filter fun e => e.2.st == .armed || e.2.st == .parked).map Prod.fst

/-- A loop's record words as applied (R235). -/
def loopF (g : Nat → Word) (l k hi lo : Nat) : Nat := fld (g (loopRec l k)) hi lo
/-- PERIOD and PHASE in quarter-cycles, and the launch head. -/
def loopPeriod (g : Nat → Word) (l : Nat) : Nat := loopF g l 1 17 8 + 1
def loopPhase (g : Nat → Word) (l : Nat) : Nat := loopF g l 1 29 20
def loopAct (g : Nat → Word) (l : Nat) : Nat := loopF g l 5 11 0

/-- The launch ticks of a loop in half-cycle `k` (R230). -/
def loopTicks (g : Nat → Word) (l k : Nat) : List Nat :=
  ([2 * k, 2 * k + 1].filter fun q => q % loopPeriod g l == loopPhase g l).map fun q => q * 1024 + loopF g l 5 25 16

/-- A plane's loop. -/
def Plane.loop (p : Plane) (l : Nat) : LoopSt := Tab.get (fun _ => {}) p.loops l
def Plane.setLoop (p : Plane) (l : Nat) (x : LoopSt) : Plane := { p with loops := Tab.put (fun _ => {}) p.loops l x }

/-- A standing source's needs, its ticks in half-cycle `k`, and its period in half-cycles as a power of two. -/
def standNeed (g : Nat → Word) : LaunchSrc → Need
  | .loop l => headNeed g (loopAct g l)
  | .head j => headNeed g j
  | _ => { path := 0, blocks := 0 }
def standTicks (g : Nat → Word) (src : LaunchSrc) (k : Nat) : List Nat :=
  match src with
  | .loop l => loopTicks g l k
  | .head j => (headTick (atHead g j) k).toList
  | _ => []
def standExp (g : Nat → Word) : LaunchSrc → Nat
  | .loop l => Nat.log2 (loopPeriod g l) - 1
  | .head j => if (atHead g j).fire = 2 then (atHead g j).exp else 0
  | _ => 0

/-- The sources that hold standing bookings: ARMED and PARKED heads, and loops booked. -/
def Plane.standers (p : Plane) : List LaunchSrc :=
  p.standing.map LaunchSrc.head ++ (p.loops.filter fun e => e.2.booked).map fun e => LaunchSrc.loop e.1

/-- Whether a standing source fits beside the other standing sources in half-cycle `k`, with what they hold in the half-cycles next to it (R103). -/
def standingFits (p : Plane) (f : FieldSide) (src : LaunchSrc) (k : Nat) : Bool :=
  let g := p.cfg
  let near := [k - 1, k, k + 1].eraseDups
  let w := (p.standers.filter fun o => o != src).foldl (fun w o =>
    (near.flatMap (standTicks g o)).foldl (fun w t => WeirSt.book w o (standNeed g o) t) w) { p.weir with books := [] }
  let w := ((near.filter fun h => h != k).flatMap (standTicks g src)).foldl (fun w t => w.book src (standNeed g src) t) w
  (standTicks g src k).all fun t => fits g f w (standNeed g src) t

/-- The half-cycle of a ONCE_AT head. -/
def onceHalf (g : Nat → Word) : LaunchSrc → Option Nat
  | .head j => if (atHead g j).fire = 1 then some (halfOf (atHead g j).timing) else none
  | _ => none

/-- Half-cycles over which a standing source is checked against the others beyond the model: the common period (R103, R140), from
`k0`, where it fires, with those in and beside which a ONCE_AT head fires; a ONCE_AT head fires in one. -/
def standHalves (g : Nat → Word) (src : LaunchSrc) (others : List LaunchSrc) (longest k0 : Nat) : List Nat :=
  match onceHalf g src with
  | some k => [k]
  | none => ((List.range (2 ^ longest)).map (fun i => k0 + i) ++
      (others.filterMap (onceHalf g)).flatMap fun k => [k - 1, k, k + 1]).filter fun k => decide (k0 ≤ k) && standTicks g src k != []

/-- Check a standing source under R103 in the half-cycles `lo` to `hi` of the model from tick `t0` on, against the commands and standing bookings there
and against the other standing sources over their common period; book it where it fits. The half-cycle that enters the model at a boundary, with no
command in it, is written by `enterModel`. -/
def Plane.bookStanding (p : Plane) (f : FieldSide) (src : LaunchSrc) (lo hi t0 : Nat) : Option Plane :=
  let g := p.cfg
  let need := standNeed g src
  let ticks := ((List.range (hi + 1 - lo)).flatMap fun i => standTicks g src (lo + i)).filter fun t => decide (t0 ≤ t)
  let longest := (p.standers.map (standExp g)).foldl max (standExp g src)
  if ticks.all (fun t => fits g f p.weir need t) &&
      (standHalves g src p.standers longest lo).all (fun k => standingFits p f src k) then
    some (p.updWeir fun w => ticks.foldl (fun w t => w.book src need t) w)
  else none

/-- Write the standing bookings of half-cycle `k` as it enters the model, before any command can book there (R103). -/
def Plane.enterModel (p : Plane) (k : Nat) : Plane :=
  let g := p.cfg
  ((p.heads.filter fun e => e.2.st == .armed).map (fun e => LaunchSrc.head e.1) ++
    (p.loops.filter fun e => e.2.booked).map (fun e => LaunchSrc.loop e.1)).foldl (fun p src =>
      (standTicks g src k).foldl (fun p t => p.updWeir fun w => w.book src (standNeed g src) t) p) p

/-- Judge a complete head at the boundary that begins half-cycle `hb` (R141). -/
def Plane.judgeHead (p : Plane) (f : FieldSide) (j hb : Nat) : Plane :=
  let g := p.cfg
  let h := atHead g j
  let x := p.head j
  let p := p.updWeir fun w => w.unbook (.head j) fun b => decide (halfOf b.tick > hb)
  let go (st : HeadState) (p : Plane) : Plane := p.setHead j { x with st := st }
  if h.kind = 0 ∨ h.kind = 3 then p.setHead j {}
  else if !headComplete g j then go .incomplete p
  else if !h.en then go .off p
  else if h.fire = 0 then go .ready p
  else if h.fire = 1 ∧ halfOf h.timing ≤ hb then (go .expired p).evt Reg.ACT_EVT 10
  else
    let p := go .off p
    match p.bookStanding f (.head j) (hb + 1) (hb + 63) 0 with
    | some p => go (if h.fire = 1 ∧ halfOf h.timing > hb + 64 then .parked else .armed) p
    | none => (go .refused p).evt Reg.WEIR_EVT 10

/-- A standing firing is not made, or a head stops: MISS_IDX, EVT.MISSED and a record; a missed firing also counts
(R141). A loop's launch not made always counts (R230). -/
def Plane.missed (p : Plane) (loop_ : Bool) (idx cause tick tag : Nat) (count : Bool) : Plane :=
  let p := if loop_ then (p.bump Reg.LOOP_MISS_CNT 15 0).evt Reg.LOOP_EVT 12
    else
      let p := (p.wr Reg.ACT_MISS_IDX (BitVec.ofNat 32 (idx + 0x10000 * cause))).evt Reg.ACT_EVT 9
      if count then p.bump Reg.ACT_MISS_CNT 15 0 else p
  p.stage 0x11 (BitVec.ofNat 6 tag) 1 ([BitVec.ofNat 8 loop_.toNat, BitVec.ofNat 8 cause] ++ leBytes 2 idx ++ leBytes 8 tick)

/-- Stop the heads on paths that satisfy `q`: those ARMED or PARKED (R141), and where the head's tag has lost its path every one but a
head REFUSED, FIRED, EXPIRED or INCOMPLETE (R315). (DEDUCED, unsafe: assumption 33.) -/
def Plane.stopHeads (p : Plane) (q : Head → Bool) (cause now : Nat) (foreign : Bool := false) : Plane :=
  let l := if foreign then
      (p.heads.filter fun e => e.2.st == .off || e.2.st == .ready || e.2.st == .armed || e.2.st == .parked || (e.2.st == .stopped && !e.2.foreign)).map Prod.fst
    else p.standing
  (l.filter fun j => q (atHead p.cfg j)).foldl (fun p j =>
    let h := atHead p.cfg j
    -- a firing already built is made as built, and its tick, at which the head is STOPPED, does not count (R137, R143)
    let ahead := p.weir.books.countP fun b => b.src == .head j && decide (now ≤ b.tick) && decide (halfOf b.tick ≤ halfOf (now + 2047))
    let p := p.updWeir fun w => w.unbook (.head j)
    let p := p.setHead j { p.head j with st := .stopped, foreign := foreign, sched := (p.head j).sched - ahead }
    p.missed false j cause now h.tag false) p

/-- Stop the launches of booked loops whose head satisfies `q`: bookings released, LSTOP, one count and one record (R230). -/
def Plane.stopLoops (p : Plane) (q : Head → Bool) (cause now : Nat) (foreign : Bool := false) : Plane :=
  ((p.loops.filter fun e => e.2.booked).filter fun e => q (atHead p.cfg (loopAct p.cfg e.1))).foldl (fun p e =>
    let p := p.updWeir fun w => w.unbook (.loop e.1)
    let p := p.setLoop e.1 { p.loop e.1 with booked := false, lstop := true, foreign := foreign }
    p.missed true e.1 cause now (loopTag p.cfg e.1) true) p

/-- Standing launches stop on paths that satisfy `q`. -/
def Plane.stopStanding (p : Plane) (q : Head → Bool) (cause now : Nat) (foreign : Bool := false) : Plane :=
  (p.stopHeads q cause now foreign).stopLoops q cause now foreign

/-- A path is disabled at boundary `b` (R115): commands with ticks at or after it complete CANCELLED, standing bookings end and
their heads and loop launches stop. -/
def Plane.disablePath (p : Plane) (path b : Nat) : Plane :=
  let p := p.cancelAll (fun x => x.path == path && decide (b ≤ x.launch)) b
  p.stopStanding (fun h => h.path == path) 3 b

/-! ### Blocks towards the planes (R25, R119) -/

/-- A 64-byte block. `bad` inverts its CRC (R124). -/
def blockBytes (type flags lseq stamp slot tag path seq : Nat) (payload : List Byte) (bad : Bool := false) : List Byte :=
  let b := [BitVec.ofNat 8 type, BitVec.ofNat 8 flags] ++ leBytes 2 lseq ++ leBytes 8 stamp ++
    [BitVec.ofNat 8 slot, BitVec.ofNat 8 tag] ++ leBytes 2 path ++ leBytes 4 seq ++ slice payload 0 40
  let c := crc32c b
  b ++ leBytes 4 (if bad then c ^^^ 0xFFFFFFFF else c)

/-- The first live link of a plane. -/
def Plane.liveLink (p : Plane) : Option Nat := [0, 1].find? fun l => p.weir.linkUp.getD l false

/-- The field side sends a block to a plane on a link: it takes the next LSEQ of that link and direction. -/
def FieldSide.sendTo (f : FieldSide) (i : PlaneId) (link tries now : Nat) (mk : Nat → List Byte) : FieldSide :=
  let k := 2 * i.num + link
  let n := f.lseqTx.getD k 0
  { f with lseqTx := f.lseqTx.set k ((n + 1) % 65536), out := f.out ++ [{ plane := i, link := link, tries := tries, at_ := now, bytes := mk n }] }

/-- A block of a type goes to both planes, each over its first live link. `owner` is the plane that FLAGS names. -/
def State.fieldSend (s : State) (type : Nat) (owner : Nat) (standing : Bool) (stamp slot tag path seq : Nat) (payload : List Byte) : State :=
  [PlaneId.a, .b].foldl (fun s i =>
    match (s.plane i).liveLink with
    | some l => s.field fun f => f.sendTo i l 1 s.now fun n => blockBytes type (2 * owner + 8 * standing.toNat) n stamp slot tag path seq payload
    | none => s) s

/-- An INPUT block (R119) with the payload of an input event. -/
def State.sendInput (s : State) (stamp tag path : Nat) (payload : List Byte) : State := s.fieldSend 0x81 0 false stamp 0 tag path 0 payload

end Sys2Proof.Machine
end

