-- ==== Sys2Proof/Machine/Ports.lean ====
section
/-!
DEFINITION. PoE ports and the power budget (chapter 6): assignment of classes, the port state machine, grants, sheds and
disagreement.
-/
namespace Sys2Proof.Machine

/-- The applied configuration that the field side follows: the active plane's, otherwise that of a running plane. -/
def State.cfg (s : State) : Nat → Word :=
  match s.active? with
  | some i => (s.plane i).cfg
  | none => if s.a.running then s.a.cfg else s.b.cfg

/-- Whether the field side holds its outputs for want of authority (R252): no plane holds the lease, or the new holder's claim stamp C has not come
with no old holder left. -/
def FieldSide.inGap (f : FieldSide) (now : Nat) : Bool := f.au.holder.isNone || (f.au.old.isNone && decide (now < f.au.claimAt))

/-- Fields of PORT_n.CFG. -/
def portCfg (g : Nat → Word) (n hi lo : Nat) : Nat := fld (g (Reg.PORTG_CFG (n / 8) (n % 8))) hi lo

/-- PSE class power in mW, single signature; classes 1 to 5 are the same per pairset (R147). -/
def classPower (k : Nat) : Nat := [15400, 4000, 7000, 15400, 30000, 45000, 60000, 75000, 90000].getD k 0

/-- The limit in mW that CFG.CAP sets, where it sets one. -/
def capLimit (g : Nat → Word) (n : Nat) : Option Nat :=
  if portCfg g n 15 8 = 0 then none else some (500 * min 180 (portCfg g n 15 8))

/-- Whether a power is within an optional limit. -/
def within (w : Nat) : Option Nat → Bool
  | none => true
  | some l => decide (w ≤ l)

/-- The assigned class of a single-signature PD (R148), or none where the port is DENIED. -/
def assignSingle (g : Nat → Word) (n k : Nat) : Option Nat :=
  let typeMax := if portCfg g n 1 1 = 1 then 8 else 6
  let ok (j : Nat) : Bool := decide (classPower j ≤ classPower typeMax) && within (classPower j) (capLimit g n)
  if k < 4 then (if ok k then some k else none)
  else ((List.range (k - 2)).map fun i => k - i).find? ok

/-- Bring the sum of two pairsets within CFG.CAP by demotion (R148). -/
def demoteDual (lim : Option Nat) : Nat → Nat → Nat → Option (Nat × Nat)
  | 0, _, _ => none
  | fuel + 1, a, b =>
    if within (classPower a + classPower b) lim then some (a, b)
    else if a ≥ b && a ≥ 4 then demoteDual lim fuel (a - 1) b
    else if b ≥ 4 then demoteDual lim fuel a (b - 1)
    else none

/-- The assigned classes of a dual-signature PD (R148). -/
def assignDual (g : Nat → Word) (n ka kb : Nat) : Option (Nat × Nat) :=
  let typeMax := if portCfg g n 1 1 = 1 then 5 else 4
  demoteDual (capLimit g n) 8 (min ka typeMax) (min kb typeMax)

/-- What a port counts in ALLOC_SUM (R156): an output against OFF or SLEEP counts its last class, or 90 W. -/
def PortSt.counted (x : PortSt) : Nat :=
  if x.volt && x.cmd != 1 && x.alloc == 0 then
    (if x.cls = 15 then 90000 else classPower x.cls + (if x.clsB = 15 then 0 else classPower x.clsB))
  else x.alloc

/-- PWR.ALLOC_SUM in mW. -/
def FieldSide.allocSum (f : FieldSide) : Nat := (f.ports.map fun e => e.2.counted).sum

/-- The measured state (R152): a port whose output is at or above 44 V reads POWER_UP or POWERED, whatever its PSE controller reports. -/
def PortSt.measured (x : PortSt) : PortState := if x.volt then (if x.st = .powerUp then .powerUp else .powered) else x.st

/-- Put a port into a state; a change of the measured state sets PORTG.EVT.CHANGE in both planes (R154). -/
def State.portTo (s : State) (n : Nat) (x : PortSt) : State :=
  let old := s.fs.port n
  let s := s.field fun f => f.setPort n (if x.st = old.st then x else { x with since := s.now })
  if x.measured = old.measured then s else s.updBoth fun p => p.evt (Reg.PORTG_EVT (n / 8)) (24 + n % 8)

/-- Power off and grant released. -/
def PortSt.off (x : PortSt) : PortSt :=
  { x with alloc := 0, held := false, volt := false, ma := 0, grantNo := none, powerUpAt := none }

/-- Points fed by a port lose their station (R129). -/
def Plane.portStationLost (p : Plane) (port : Nat) : Plane := p.forPoints (fun e => e.kind == 1 && e.src == port) Plane.pointBad

/-- A port loses its link, and with it negotiated pause (R265, R275), and the points that it feeds their station (R129), at a boundary as seen from the tick after it (R128); its heads and loop
launches stop at the next boundary (R141). -/
def State.portDown (s : State) (n : Nat) : State :=
  let s := (s.field fun f => { (f.setPort n { f.port n with link := false }) with
    phy := Tab.put (fun _ => {}) f.phy n { (Tab.get (fun _ => {}) f.phy n : PhySt) with pauseRx := false, pauseUntil := none } }).updBoth fun p => p.evt Reg.SWF_EVT 9
  if s.now % 2048 = 0 then s.field fun f => { f with lostPorts := f.lostPorts ++ [n] } else s.updBoth fun p => p.portStationLost n

/-- A port enters FAULT (R153, R154): power removed, grant released, counted and recorded. -/
def State.portFault (s : State) (n cause : Nat) : State :=
  let x := s.fs.port n
  let s := s.portTo n { x.off with st := .fault, fault := cause, since := s.now }
  s.updBoth fun p =>
    let p := (p.bump (Reg.PORTG_CNT (n / 8) (n % 8)) 7 0).evt (Reg.PORTG_EVT (n / 8)) (8 + n % 8)
    p.stage 0x20 (BitVec.ofNat 6 (portTag p.cfg n)) 2 ([BitVec.ofNat 8 n, BitVec.ofNat 8 cause, 0, 0] ++ leBytes 8 s.now)

/-- Start detection. -/
def PortSt.search (x : PortSt) : PortSt := { x with st := .searching, fault := 0 }

/-- Where the port goes when it is commanded (R153). -/
def PortSt.commanded (x : PortSt) (en : Bool) (target : Nat) : PortSt :=
  if target = 0 then (if x.st = .disabled then x else { x.off with st := .disabled, fault := 0, shedNo := none, regrant := false })
  else if target = 2 then
    match x.st with
    | .powered | .powerUp | .waitBudget => { x with st := .sleep, volt := false, ma := 0, grantNo := none, powerUpAt := none, held := true }
    | .searching | .classifying | .denied => { x.off with st := .sleep }
    | _ => x
  else
    match x.st with
    | .disabled => if en then x.search else x
    | .sleep => { x.search with held := decide (x.alloc ≠ 0) }
    | _ => x

/-- Set STATE.INTENT of a port in both planes, as applied and in the image, where it stands until a write that still waits applies (R151). -/
def Plane.setIntent (p : Plane) (n v : Nat) : Plane :=
  let a := Reg.PORTG_STATE (n / 8) (n % 8)
  { p with applied := Tab.put regDefault p.applied a (setFld (p.cfg a) 1 0 v) }.wrF a 1 0 v

/-- The PSE takes a commanded state; the PHY of a port that enters SLEEP is off (R153, R164). -/
def State.applyCommand (s : State) (n : Nat) (x : PortSt) (en : Bool) (target : Nat) : State :=
  let s := s.portTo n (x.commanded en target)
  if (s.fs.port n).st = .sleep ∧ (s.fs.port n).link then s.portDown n else s

/-- A PSE state change takes effect at the field side (R149, R151, R155): the commanded state, the intent, and the port's
state. -/
def State.commandPort (s : State) (n target : Nat) : State :=
  let x := s.fs.port n
  let x := { x with cmd := target, cmdAt := (if x.cmd = target then x.cmdAt else s.now), attempt := 0, disagree := false }
  let en := portCfg s.cfg n 0 0 == 1
  (s.applyCommand n x en target).updBoth fun p => p.setIntent n target

/-- Why power leaves a port that is shed (R161, R162). -/
def State.shedPort (s : State) (n : Nat) (overload : Bool) : State :=
  let x := s.fs.port n
  let no := s.fs.power.shedNext
  let x := { x.off with st := .shed, lastGrant := x.counted, shedNo := some no, regrant := overload }
  let s := s.portTo n x
  let s := s.field fun f => { f with power := { f.power with shedNext := no + 1 } }
  s.updBoth fun p => (p.bump Reg.PWR_SHED_CNT 15 0).bump (Reg.PORTG_CNT (n / 8) (n % 8)) 23 16

/-- Insert by key into a list sorted by rising key, after equals. -/
def insertBy {α : Type} (key : α → Nat) (x : α) : List α → List α
  | [] => [x]
  | y :: r => if key x < key y then x :: y :: r else y :: insertBy key x r

/-- Sort by rising key, keeping the order of equals. -/
def sortBy {α : Type} (key : α → Nat) (l : List α) : List α := l.foldl (fun a x => insertBy key x a) []

/-- All ports in shed order (R162): rising SHED_ORD, falling port number among equals. -/
def shedOrder (g : Nat → Word) : List Nat := sortBy (fun n => portCfg g n 31 24) ((List.range 128).map fun i => 127 - i)

/-- Shed the candidates in order while ALLOC_SUM exceeds AVAIL. -/
def State.shedWhile (s : State) : List Nat → State
  | [] => s
  | n :: r =>
    if s.fs.allocSum ≤ s.fs.power.avail then s
    else if (s.fs.port n).counted = 0 then s.shedWhile r
    else (s.shedPort n true).shedWhile r

/-- An overload shed (R162), where AVAIL has fallen below ALLOC_SUM. Heads on the shed ports stop at the next boundary
(R141). -/
def State.overloadShed (s : State) : State :=
  if s.fs.allocSum ≤ s.fs.power.avail then s
  else
    (s.shedWhile (shedOrder s.cfg)).updBoth fun p => p.evt Reg.PWR_EVT 10

/-- The number of phases that meet the good condition. -/
def State.goodPhases (s : State) : Nat := (List.range 3).countP fun i => (s.plane s.lead).mpe.phGood.getLsbD i

/-- The supply mode (R157): 0 three-phase, 1 single-phase, 2 partial. -/
def State.supplyMode (s : State) : Nat :=
  if fld (s.cfg Reg.MPE_CFG) 2 1 ≠ 3 then 1
  else if s.fs.power.slw ∧ s.goodPhases = 2 ∧ (s.fs.power.partial_ ∨ !s.fs.power.ride) then 2
  else 0

/-- The supply rating in mW (R157). -/
def supplyRating (mode vmin : Nat) : Nat :=
  let three := if vmin ≥ 180 then 6000000 else if vmin ≥ 85 then 3800000 + (vmin - 85) * 2200000 / 95 else 3800000 * vmin / 85
  if mode = 1 then (if vmin ≥ 230 then 3400000 else 3400000 * vmin / 230) else if mode = 2 then three * 2 / 3 else three

/-- The cell rating in mW (R157). -/
def cellRating (cells : BitVec 4) : Nat :=
  let n := (List.range 4).countP fun i => cells.getLsbD i
  if n ≥ 3 then 6000000 else n * 2000000

/-- The value of AVAIL as computed now (R157, R158). -/
def State.availNow (s : State) : Nat :=
  let w := s.fs.power
  let rating := match w.frozen with
    | some r => r
    | none => supplyRating s.supplyMode w.vmin
  min rating (cellRating w.cells) - 100000 * (w.intake - 40)

/-- A fall of AVAIL takes effect at once, with the overload shed it may need (R158, R162). -/
def State.availFall (s : State) : State :=
  let v := s.availNow
  if v < s.fs.power.avail then
    let s := s.field fun f => { f with power := { f.power with avail := v, rises := [] } }
    (s.updBoth fun p => p.evt Reg.PWR_EVT 12).overloadShed
  else s

/-- AVAIL at a half-cycle boundary (R158): a fall at once, a rise at the 50th consecutive higher value, to the lowest of
them. -/
def State.availBoundary (s : State) : State :=
  let v := s.availNow
  if v > s.fs.power.avail then
    let rises := s.fs.power.rises ++ [v]
    if rises.length ≥ 50 then
      s.field fun f => { f with power := { f.power with avail := rises.foldl min v, rises := [] } }
    else s.field fun f => { f with power := { f.power with rises := rises } }
  else (s.field fun f => { f with power := { f.power with rises := [] } }).availFall

/-- Granted ports whose stamp has come start POWER_UP (R159), though not in ride-through (R160). -/
def State.powerUps (s : State) : State :=
  (s.fs.ports.filter fun e => e.2.powerUpAt.any fun t => decide (t ≤ s.now)).foldl (fun s e =>
    let x := s.fs.port e.1
    if x.st = .waitBudget ∧ !s.fs.power.ride then s.portTo e.1 { x with st := .powerUp, held := false, grantNo := none, powerUpAt := none }
    else s.field fun f => f.setPort e.1 { x with powerUpAt := none }) s

/-- Up to 8 granted ports start POWER_UP in a half-cycle, 256 ticks apart in grant order (R159). -/
def State.startPowerUps (s : State) : State :=
  if s.fs.power.ride || s.fs.stopped then s
  else
    let ready := sortBy (fun n => (s.fs.port n).grantNo.getD 0)
      ((List.range 128).filter fun n => (s.fs.port n).st == .waitBudget && (s.fs.port n).grantNo.isSome)
    (((ready.take 8).zipIdx).foldl (fun s e => s.field fun f => f.setPort e.1 { f.port e.1 with powerUpAt := some (s.now + 256 * e.2) }) s).powerUps

/-- What a port in WAIT_BUDGET asks for, in mW. -/
def PortSt.asks (x : PortSt) : Nat :=
  (if x.cls = 15 then 0 else classPower x.cls) + (if x.clsB = 15 then 0 else classPower x.clsB)

/-- Grant the ports in WAIT_BUDGET first-fit by priority, stamp and port number (R159); not while SLW is raised, nor in a gap (R252). -/
def State.grantWaiting (s : State) : State :=
  if s.fs.power.slw || s.fs.stopped || s.fs.inGap s.now then s
  else
    let g := s.cfg
    let waiting := (List.range 128).filter fun n => (s.fs.port n).st == .waitBudget && (s.fs.port n).grantNo.isNone
    let order := sortBy (fun n => portCfg g n 17 16) (sortBy (fun n => (s.fs.port n).since) waiting)
    (order.zipIdx).foldl (fun s (n, i) =>
      let x := s.fs.port n
      if s.fs.allocSum - x.alloc + x.asks ≤ s.fs.power.avail then
        s.field fun f => f.setPort n { x with alloc := x.asks, grantNo := some (s.now + i) }
      else s) s

/-- The grants of a boundary, and the ports that start on them. -/
def State.grantPorts (s : State) : State := s.grantWaiting.startPowerUps

/-- Ports from an overload shed return in reverse shed order where they fit (R162): on their own with REGRANT_AUTO, otherwise
after an intent has been applied. -/
def State.regrant (s : State) : State :=
  if s.fs.power.shed then s
  else
    let auto := bit (s.cfg Reg.PWR_CFG) 8
    let cand := (List.range 128).filter fun n =>
      let x := s.fs.port n
      x.st == .shed && x.regrant && x.cmd == 1 && (auto || x.held)
    let order := (sortBy (fun n => (s.fs.port n).shedNo.getD 0) cand).reverse
    (order.foldl (fun (acc : State × Nat) n =>
      let x := acc.1.fs.port n
      if acc.1.fs.allocSum + acc.2 + x.lastGrant ≤ acc.1.fs.power.avail then
        (acc.1.portTo n { x.search with shedNo := none, regrant := false, held := false }, acc.2 + x.lastGrant)
      else acc) (s, 0)).1

/-- Whether the measured state agrees with the commanded one (R155). -/
def PortSt.agrees (x : PortSt) : Bool :=
  if x.cmd = 0 then x.measured == .disabled
  else if x.cmd = 2 then x.measured == .sleep
  else x.measured != .disabled && x.measured != .sleep

/-- The check of one port at a boundary (R155). -/
def State.checkPort (s : State) (n : Nat) : State :=
  let x := s.fs.port n
  if portCfg s.cfg n 0 0 = 0 ∨ s.now < x.cmdAt + 2048 then s
  else if x.agrees then
    if x.attempt = 0 ∧ !x.disagree then s else s.field fun f => f.setPort n { x with attempt := 0, disagree := false }
  else if x.disagree then s
  else if x.attempt < 8 then
    s.applyCommand n { x with attempt := x.attempt + 1 } true x.cmd
  else
    let s := s.field fun f => f.setPort n { x with disagree := true }
    s.updBoth fun p =>
      let p := (p.bump (Reg.PORTG_CNT (n / 8) (n % 8)) 15 8).evt (Reg.PORTG_EVT (n / 8)) (16 + n % 8)
      p.stage 0x21 (BitVec.ofNat 6 (portTag p.cfg n)) 2
        ([BitVec.ofNat 8 n, BitVec.ofNat 8 x.cmd, BitVec.ofNat 8 x.measured.num, 0] ++ leBytes 8 s.now)

/-- The check of every port at a boundary. -/
def State.checkPorts (s : State) : State := (List.range 128).foldl State.checkPort s

/-- An applied intent write (R150, R153, R155, R162): disagreement is cleared; a leaking port leaves FAULT, searching if it is commanded ON and has that
intent, and DISABLED with no command but OFF or with an intent of ON, whose launch then starts detection; a port that an overload shed has taken may
return with an intent of ON. An intent of OFF acts with its launch. (DEDUCED, unsafe: assumption 37.) -/
def State.applyIntent (s : State) (n : Nat) : State :=
  let v := portCfg s.cfg n 0 0
  let want := fld (s.cfg (Reg.PORTG_STATE (n / 8) (n % 8))) 1 0
  let x := s.fs.port n
  let x := { x with attempt := 0, disagree := false }
  let x := if x.st = .fault ∧ x.fault = 4 then
      (if want = 1 ∧ v = 1 ∧ x.cmd = 1 then x.search else if want = 1 ∨ x.cmd = 0 then { x.off with st := .disabled, fault := 0 } else x)
    else if x.st = .shed ∧ x.regrant ∧ want = 1 then { x with held := true }
    else x
  s.portTo n x

/-- Book the PSE state change of an applied intent in a plane (R150): the earliest half-cycle from hb + 1 in which the port group
has a free PSE slot, at tick 64 + 128 × (n mod 8). -/
def Plane.bookIntent (p : Plane) (f : FieldSide) (n hb : Nat) : Plane :=
  let want := fld (p.cfg (Reg.PORTG_STATE (n / 8) (n % 8))) 1 0
  let p := p.updWeir fun w => { w.unbook (.intent n) with intentBooks := w.intentBooks.filter fun e => e.1 != n }
  if (f.port n).cmd = want then p
  else
    let need : Need := { path := 0x100 + n, blocks := 1 }
    let tick (k : Nat) : Nat := k * 2048 + 64 + 128 * (n % 8)
    match searchTick (fun k => fits p.cfg f p.weir need (tick k)) 1024 (hb + 1) with
    | some k => p.updWeir fun w => { w.book (.intent n) need (tick k) with intentBooks := w.intentBooks ++ [(n, tick k)] }
    | none => p

/-- A changed PORT_n.CFG applies (R153, R165): EN cleared powers the port down, EN set starts detection where commanded ON, and a
change of CAP or type returns a DENIED port to SEARCHING. -/
def State.applyPortCfg (s : State) (n : Nat) (old : Word) : State :=
  let w := s.cfg (Reg.PORTG_CFG (n / 8) (n % 8))
  let x := s.fs.port n
  if !bit w 0 then (if x.st = .disabled then s else s.portTo n { x.off with st := .disabled, fault := 0, shedNo := none, regrant := false })
  else if x.st = .disabled ∧ x.cmd = 1 then s.portTo n x.search
  else if x.st = .denied ∧ (fld w 15 8 ≠ fld old 15 8 ∨ fld w 1 1 ≠ fld old 1 1) then s.portTo n x.search
  else s

/-! ### Meanings -/

/-- PORT_SIGNATURE_FOUND (R153): a searching port classifies. -/
def execPortSignatureFound (port : Fin 128) (dual : Bool) (s : State) : Host.Outcome State Fault Refusal :=
  let x := s.fs.port port
  .next (if x.st = .searching then s.portTo port { x with st := .classifying, dual := dual } else s)

/-- DETECTION_RETRY (R153): detection repeats and the port stays SEARCHING. -/
def execDetectionRetry (port : Fin 128) (s : State) : Host.Outcome State Fault Refusal :=
  let x := s.fs.port port
  .next (if x.st = .searching then s.field fun f => f.setPort port { x with since := s.now } else s)

/-- What a classified port does with its assigned power (R153, R159). -/
def State.classified (s : State) (n : Nat) (x : PortSt) : State :=
  if x.held && decide (x.asks ≤ x.alloc) then
    if s.fs.power.ride then s.portTo n { x with st := .waitBudget, alloc := x.asks, grantNo := some s.now }
    else s.portTo n { x with st := .powerUp, alloc := x.asks, held := false }
  else s.portTo n { x with st := .waitBudget, alloc := 0, held := false, grantNo := none }

/-- CLASS_MEASURED (R148, R153). -/
def execClassMeasured (port : Fin 128) (k : Fin 9) (kb : Option (Fin 6)) (s : State) : Host.Outcome State Fault Refusal :=
  let x := s.fs.port port
  let g := s.cfg
  .next (if x.st = .classifying then
    match kb with
    | none =>
      let x := { x with classReq := k, dual := false, classReqB := 15, clsB := 15 }
      match assignSingle g port k with
      | some j => s.classified port { x with cls := j, fourPair := !(portCfg g port 2 2 == 1 && decide (j ≤ 4)) }
      | none => s.portTo port { x.off with st := .denied, cls := 15 }
    | some kb =>
      let x := { x with classReq := k, dual := true, classReqB := kb }
      match assignDual g port k kb with
      | some (a, b) => s.classified port { x with cls := a, clsB := b, fourPair := true }
      | none => s.portTo port { x.off with st := .denied, cls := 15, clsB := 15 }
  else s)

/-- SIGNATURE_RECHECK (R153): a lost signature returns a waiting or denied port to SEARCHING. -/
def execSignatureRecheck (port : Fin 128) (present : Bool) (s : State) : Host.Outcome State Fault Refusal :=
  let x := s.fs.port port
  .next (if !present ∧ (x.st = .waitBudget ∨ x.st = .denied) then s.portTo port x.off.search else s)

/-- POWER_UP_REGULATION (R153). -/
def execPowerUpRegulation (port : Fin 128) (s : State) : Host.Outcome State Fault Refusal :=
  let x := s.fs.port port
  .next (if x.st = .powerUp then s.portTo port { x with st := .powered, volt := true, powerUpAt := none } else s)

/-- INRUSH (R153). -/
def execInrush (port : Fin 128) (s : State) : Host.Outcome State Fault Refusal :=
  .next (if (s.fs.port port).st = .powerUp then s.portFault port 3 else s)

/-- MPS_LOST (R153). -/
def execMpsLost (port : Fin 128) (s : State) : Host.Outcome State Fault Refusal :=
  let x := s.fs.port port
  .next (if x.st = .powered then s.portTo port x.off.search else s)

/-- OVERLOAD (R153): cause OVERLOAD, or SHORT where the current limit was held. -/
def execOverload (port : Fin 128) (short : Bool) (s : State) : Host.Outcome State Fault Refusal :=
  let x := s.fs.port port
  .next (if x.st = .powered ∨ x.st = .powerUp then s.portFault port (if short then 2 else 1) else s)

/-- FAULT_RETRY (R153). -/
def execFaultRetry (port : Fin 128) (s : State) : Host.Outcome State Fault Refusal :=
  let x := s.fs.port port
  .next (if x.st = .fault ∧ x.cmd = 1 ∧ x.fault ≠ 4 then s.portTo port x.search else s)

/-- PSE_FAULT (R153, R435): every port of the group enters FAULT and FIELD_FLT.PSE is raised. -/
def execPseFault (group : Fin 16) (s : State) : Host.Outcome State Fault Refusal :=
  let s := (List.range 8).foldl (fun s i => State.portFault s (8 * group.val + i) 5) s
  .next (s.updBoth fun p => p.raise 1 6 s.now)

/-- CELL_FAULT (R158, R435): the cell leaves service, AVAIL falls at once and an overload shed may follow. -/
def execCellFault (cell : Fin 4) (s : State) : Host.Outcome State Fault Refusal :=
  let s := s.field fun f => { f with power := { f.power with cells := f.power.cells &&& ~~~(1#4 <<< cell.val) } }
  let s := s.updBoth fun p => (p.evt Reg.PWR_EVT 11).raise 1 cell s.now
  .next s.availFall

/-- RIDE_THROUGH_END (R160): the end of ride-through, after RT_MAX of true time or at the store's shed threshold. -/
def execRideThroughEnd (store : Bool) (s : State) : Host.Outcome State Fault Refusal :=
  let rt := max 20 (min 200 (fld (s.cfg Reg.PWR_CFG) 7 0))
  let tt := s.ttNow
  .next (if s.fs.power.ride ∧ (store ∨ s.fs.power.slwTt + rt * 1000000 ≤ tt) then
    s.field fun f => { f with power := { f.power with ride := false, rideEnd := some s.now, frozen := none } }
  else s)

/-- WAKE_LAUNCH (R164, R279): at the boundary after the matching frames the field side launches ON for the sleeping ports named
by the matching filters, and both planes take the reports, one for each match. `waking` holds (filter, port bitmap, stamp) of each. -/
def execWakeLaunch (s : State) : Host.Outcome State Fault Refusal :=
  if s.now % 2048 ≠ 0 ∨ s.fs.waking = [] then .next s
  else
    let hits := s.fs.waking
    let woken := (List.range 128).filter fun n => (s.fs.port n).cmd == 2 && hits.any fun e => e.2.1 / 2 ^ n % 2 == 1
    let s := hits.foldl (fun s e => s.sendInput e.2.2 (fld (s.cfg (Reg.WAKE_CFG e.1)) 13 8) 0x500
      ([0x31, BitVec.ofNat 8 e.1] ++ leBytes 16 ((woken.filter fun n => e.2.1 / 2 ^ n % 2 == 1).map fun n => 2 ^ n).sum)) s
    let s := woken.foldl (fun s n => s.commandPort n 1) s
    let s := s.updBoth fun p =>
      let p := hits.foldl (fun p e => ((p.wrF Reg.WAKE_HIT e.1 e.1 1).evt Reg.WAKE_EVT 8).bump (Reg.WAKE_HITS e.1) 15 0) p
      let p := woken.foldl (fun p _ => p.bump Reg.WAKE_WOKEN_CNT 15 0) p
      if woken = [] then p else p.evt Reg.WAKE_EVT 9
    let wakes := hits.any fun e => bit (s.cfg (Reg.WAKE_CFG e.1)) 6
    .next (s.field fun f => { f with waking := [], pwron := if wakes then some (s.ttNow + 100000000) else f.pwron })

end Sys2Proof.Machine
end

