-- ==== Sys2Proof/Machine/Can.lean ====
section
/-!
DEFINITION. Reports of releases and starts (R118), CAN channels (chapter 12) and the field supply (R446).
-/
namespace Sys2Proof.Machine

/-! ### Field-side reports on command slots (R111, R113, R118) -/

/-- Whether slot `n` of a plane still holds the command numbered `seq`. -/
def Plane.holds (p : Plane) (n seq : Nat) : Bool := (p.slot n).st != .free && (p.slot n).seq == seq

/-- A report that the launch of a slot was released: LAUNCHED, and its recovery booking is released. -/
def Plane.released (p : Plane) (n seq : Nat) : Plane :=
  let x := p.slot n
  if p.holds n seq && (x.st == .sent || x.st == .booked) then
    (p.setSlot n { x with st := .launched }).updWeir fun w => w.unbook (.slot n) fun b => b.recov
  else p

/-- A report that transmission of a slot's launch has started: DELIVERED where it started within its allowance (R98), with the stamp of
the start. -/
def Plane.started (p : Plane) (n seq now : Nat) : Plane :=
  if p.holds n seq && (p.slot n).st == .launched && now ≤ (p.slot n).launch + allowance p.cfg (p.slot n).path then p.finish n .delivered 0 now else p

/-- A report that the launch of a slot was not made, with its cause. -/
def Plane.failed (p : Plane) (n seq cause now : Nat) : Plane := if p.holds n seq then p.break_ n cause now else p

/-- A start of transmission at an output reaches both planes. A standing firing has no slot. -/
def State.reportStart (s : State) (standing : Bool) (n seq : Nat) : State :=
  if standing then s else s.updBoth fun p => p.started n seq s.now

/-! ### Transmit objects (R288, R289) -/

/-- Whether object `k` of a channel transmits. -/
def objTx (g : Nat → Word) (ch k : Nat) : Bool := bit (g (Reg.CAN_DIR ch (k / 32))) (k % 32)

/-- A transmit object. -/
def CanChan.obj (c : CanChan) (k : Nat) : TxObj := Tab.get (fun _ => {}) c.tx k

/-- Replace a transmit object. -/
def CanChan.setObj (c : CanChan) (k : Nat) (x : TxObj) : CanChan := { c with tx := Tab.put (fun _ => {}) c.tx k x }

/-- Whether an object waits for the bus. -/
def TxObj.queued (x : TxObj) : Bool := x.st == .waiting || x.st == .retrying

/-- The object that takes a released launch: the lowest-numbered transmit object neither WAITING nor RETRYING (R288). -/
def freeObj (g : Nat → Word) (ch : Nat) (c : CanChan) : Option Nat :=
  (List.range 128).find? fun k => objTx g ch k && !(c.obj k).queued

/-- Place a released frame in a transmit object; where none is free the launch is not made: TX_FULL, and the command breaks
with cause BUS (R288). The flag says whether it was placed. -/
def State.canPlace (s : State) (ch : Nat) (msg : CanMsg) (standing : Bool) (slot seq tick : Nat) : State × Bool :=
  let g := s.cfg
  let c := s.fs.chan ch
  match freeObj g ch c with
  | some k =>
    let x : TxObj := { st := .waiting, msg := msg, retry := fld (g (Reg.CAN_TXO_CTRL ch)) 3 0, tag := canTag g ch,
                       stamp := tick, standing := standing, slot := slot, seq := seq }
    (s.field fun f => f.setChan ch (c.setObj k x), true)
  | none =>
    (s.updBoth fun p =>
      let p := (p.bump (Reg.CAN_TX_FULL_CNT ch) 15 0).evt (Reg.CAN_EVT ch) 14
      if standing then p else p.failed slot seq 6 s.now, false)

/-- The rank of a frame in arbitration, lower first: its arbitration field as a number (ISO 11898-1). -/
def CanMsg.rank (m : CanMsg) : Nat :=
  if m.ide then m.ident / 2 ^ 18 * 2 ^ 20 + 3 * 2 ^ 18 + m.ident % 2 ^ 18 else m.ident * 2 ^ 20

/-- The object that a channel offers at a start of arbitration (R289). -/
def CanChan.offer (c : CanChan) : Option Nat :=
  ((sortBy (fun e : Nat × TxObj => e.2.msg.rank) (c.tx.filter fun e => e.2.queued)).head?).map Prod.fst

/-- Whether a channel may send: enabled, not listening (R297). -/
def canSends (g : Nat → Word) (ch : Nat) : Bool := bit (g (Reg.CAN_CTRL ch)) 0 && !bit (g (Reg.CAN_CFG ch)) 0

/-- Whether a channel receives: enabled, integrated and not off the bus (R286, R292). -/
def State.canHears (s : State) (ch : Nat) : Bool :=
  bit (s.cfg (Reg.CAN_CTRL ch)) 0 && (s.fs.chan ch).integrated && !s.fs.chanOff ch

/-! ### Error confinement (R294) -/

/-- Points of a channel lose their station (R129). -/
def Plane.canStationLost (p : Plane) (ch : Nat) : Plane :=
  p.forPoints (fun e => e.kind == 5 && e.canCh == ch) Plane.pointBad

/-- Take new error counts: the fault confinement state, warnings, entries to error passive and to bus-off. (DEDUCED, unsafe: assumption 37.) -/
def State.canCounts (s : State) (ch tec rec_ : Nat) : State :=
  let c := s.fs.chan ch
  let fc := if c.fc = 2 ∨ tec > 255 then 2 else if tec > 127 ∨ rec_ > 127 then 1 else 0
  let auto := bit (s.cfg (Reg.CAN_CFG ch)) 1
  let enterOff := fc == 2 && c.fc != 2
  let c' := { c with tec := tec, rec_ := rec_, fc := fc, recovering := if enterOff then auto else c.recovering,
                      recov := if enterOff then 0 else c.recov }
  let s := s.field fun f => f.setChan ch c'
  s.updBoth fun p =>
    let p := if (c.tec < 96 ∧ 96 ≤ tec) ∨ (c.rec_ < 96 ∧ 96 ≤ rec_) then p.evt (Reg.CAN_EVT ch) 15 else p
    let p := if fc = 1 ∧ c.fc = 0 then p.evt (Reg.CAN_EVT ch) 11 else p
    if enterOff then
      let p := (p.evt (Reg.CAN_EVT ch) 12).bump (Reg.CAN_BUSOFF_CNT ch) 15 0
      let p := p.stage 0x3A (BitVec.ofNat 6 (canTag p.cfg ch)) 2
        ([BitVec.ofNat 8 ch, 0] ++ leBytes 2 tec ++ leBytes 8 s.now)
      p.canStationLost ch
    else p

/-- Note an error: LEC and ERRF_CNT. -/
def State.canError (s : State) (ch code : Nat) (data : Bool) : State :=
  let s := s.field fun f => f.setChan ch { f.chan ch with lec := code, lecData := data }
  s.updBoth fun p => p.bump (Reg.CAN_ERRF_CNT ch) 15 0

/-! ### Receive objects (R293) -/

/-- A plane's receive copy of a channel. -/
def Plane.rx (p : Plane) (ch : Nat) : CanRx := Tab.get (fun _ => {}) p.canRx ch

/-- Replace a plane's receive copy. -/
def Plane.setRx (p : Plane) (ch : Nat) (x : CanRx) : Plane := { p with canRx := Tab.put (fun _ => {}) p.canRx ch x }

/-- A receive object. -/
def CanRx.obj (r : CanRx) (k : Nat) : RxObj := Tab.get (fun _ => {}) r.objs k

/-- Replace a receive object. -/
def CanRx.setObj (r : CanRx) (k : Nat) (x : RxObj) : CanRx := { r with objs := Tab.put (fun _ => {}) r.objs k x }

/-- The receive objects of a channel in rising number. -/
def rxObjs (g : Nat → Word) (ch : Nat) : List Nat := below 128 fun k => !objTx g ch k

/-- The receive object after `k`, wrapping from the highest to the lowest. -/
def rxNext (g : Nat → Word) (ch k : Nat) : Option Nat :=
  match (rxObjs g ch).find? fun j => decide (k < j) with
  | some j => some j
  | none => (rxObjs g ch).head?

/-- The write position: the one kept, or the lowest receive object. -/
def rxWpos (g : Nat → Word) (ch : Nat) (r : CanRx) : Option Nat :=
  match r.wpos with
  | some k => if objTx g ch k then rxNext g ch k else some k
  | none => (rxObjs g ch).head?

/-- Store a received frame in a plane's FIFO. -/
def Plane.canStore (p : Plane) (ch : Nat) (m : CanMsg) (stamp : Nat) : Plane :=
  let r := p.rx ch
  let ovf (p : Plane) : Plane := (p.bump (Reg.CAN_RX_OVF ch) 15 0).evt (Reg.CAN_EVT ch) 9
  let tag := canTag p.cfg ch
  match rxWpos p.cfg ch r with
  | none => ovf p
  | some k =>
    let x := r.obj k
    let on := rxNext p.cfg ch k
    if !x.full then
      (p.setRx ch { r.setObj k { full := true, msg := m, stamp := stamp, tag := tag } with wpos := on }).evt (Reg.CAN_EVT ch) 8
    else if x.shadow.isNone then
      p.setRx ch { r.setObj k { x with shadow := some (m, stamp, tag) } with wpos := on }
    else ovf p

/-- Release a FULL object; a shadowed frame moves into it (R293). -/
def CanRx.release (r : CanRx) (k : Nat) : CanRx :=
  let x := r.obj k
  match x.shadow with
  | some (m, st, tag) => r.setObj k { full := true, msg := m, stamp := st, tag := tag }
  | none => r.setObj k {}

/-- FULL receive objects of a channel. -/
def rxFull (g : Nat → Word) (ch : Nat) (r : CanRx) : List Nat := (rxObjs g ch).filter fun k => (r.obj k).full

/-- The oldest FULL receive object (RX_HEAD.OBJ), by stamp; among equal stamps the first from the write position on. -/
def rxHead (g : Nat → Word) (ch : Nat) (r : CanRx) : Nat :=
  let w := (rxWpos g ch r).getD 0
  let full := rxFull g ch r
  let order := (full.filter fun k => decide (w ≤ k)) ++ full.filter fun k => decide (k < w)
  (sortBy (fun k => (r.obj k).stamp) order).headD 0

/-- A frame refreshes its CAN_SIGNAL_IN points (R126, R292). -/
def Plane.canPoints (p : Plane) (ch : Nat) (m : CanMsg) : Plane :=
  p.forPoints (fun e => e.kind == 5 && e.canCh == ch && e.canId == m.ident && e.ide == m.ide &&
      decide (sigBytes e.sig e.big ≤ m.data.length)) fun p i =>
    let e := p.pm i
    p.refresh i (e.rawField (e.sig / 512 % 32 + 1) (sigRead e.sig e.big m.data))

/-- The frame of an event with its data cut or padded to its DLC; a remote frame has none. -/
def canMsg (f : CanFrame) : CanMsg :=
  { ident := if f.ide then f.ident.toNat else f.ident.toNat % 2 ^ 11, ide := f.ide, fdf := f.fdf, brs := f.brs, esi := f.esi,
    rtr := f.rtr, dlc := f.dlc,
    data := if f.rtr then [] else slice f.data 0 (if f.fdf then dlcBytes f.dlc else min 8 f.dlc.val) }

/-! ### Configuration of a channel as it applies (R286, R296, R297) -/

/-- Objects leave the queue when a channel is disabled: WAITING ones, and RETRYING ones not on the bus, become REMOVED. -/
def CanChan.removeQueued (c : CanChan) (now : Nat) : CanChan :=
  (c.tx.filter fun e => e.2.queued && c.onBus != some e.1).foldl
    (fun c e => c.setObj e.1 { e.2 with st := .removed, stamp := now }) c

/-- Switch a connector's output; both channels' SUPPLY_OK changes (R446). -/
def State.supplySet (s : State) (c : Nat) (x : Supply) : State :=
  let was := (s.fs.supply c).on
  let s := s.field fun f => { f with supplies := Tab.put (fun _ => {}) f.supplies c x }
  if was = x.on then s
  else s.updBoth fun p =>
    let p := (p.evt (Reg.CAN_EVT (2 * c)) 16).evt (Reg.CAN_EVT (2 * c + 1)) 16
    if x.on then (if !s.fs.canFlt && (List.range 4).all fun k => (s.fs.supply k).on then p.clearFlag 1 9 s.now else p)
    else ((p.canStationLost (2 * c)).canStationLost (2 * c + 1)).raise 1 9 s.now

/-- A fault of the field bus front end that names no channel comes or goes: every channel is off the bus while it lasts (R435). (DEDUCED, unsafe: assumption 35.) -/
def State.canFront (s : State) (on : Bool) : State :=
  if s.fs.canFlt = on then s
  else
    let moved := (List.range 8).filter fun ch => (s.fs.supply (ch / 2)).on
    (s.field fun f => { f with canFlt := on }).updBoth fun p => moved.foldl (fun p ch =>
      let p := p.evt (Reg.CAN_EVT ch) 16
      if on then p.canStationLost ch else p) p

/-- A change of a channel's applied CTRL, CFG, NBT or DBT takes effect at the field side; `enWritten` says that a write of
CTRL applied, and `recover` that it held RECOVER. -/
def State.applyCan (s : State) (ch : Nat) (old : Nat → Word) (enWritten recover : Bool) : State :=
  let g := s.cfg
  let en := bit (g (Reg.CAN_CTRL ch)) 0
  let was := bit (old (Reg.CAN_CTRL ch)) 0
  let timing := g (Reg.CAN_NBT ch) != old (Reg.CAN_NBT ch) || g (Reg.CAN_DBT ch) != old (Reg.CAN_DBT ch)
  let c := s.fs.chan ch
  let c := if !canSends g ch && canSends old ch then c.removeQueued s.now else c
  let c := if timing || en != was then { c with integrated := false } else c
  -- with BO_AUTO at 1 recovery starts at once (R296)
  let c := if c.fc = 2 ∧ bit (g (Reg.CAN_CFG ch)) 1 then { c with recovering := true } else c
  let s := s.field fun f => f.setChan ch c
  let s := if was && !en then s.updBoth fun p => p.canStationLost ch else s
  let s := if recover then
      if c.fc = 2 then s.field fun f => f.setChan ch { f.chan ch with recovering := true }
      else s.updBoth fun p => p.err (0x38 + ch)
    else s
  let sup := s.fs.supply (ch / 2)
  if enWritten && en && sup.latched then s.supplySet (ch / 2) { on := true, onAt := s.ttNow } else s

/-! ### Meanings -/

/-- CAN_ARBITRATION_START (R289, R290, R291): the channel offers its highest-ranked object; the start of frame is one attempt, and
the first one is the launch. -/
def execCanArbitrationStart (ch : Fin 8) (s : State) : Host.Outcome State Fault Refusal :=
  let c := s.fs.chan ch
  .next (if canSends s.cfg ch && c.integrated && !s.fs.chanOff ch && !s.fs.inGap s.now && c.onBus.isNone then
    match c.offer with
    | some k =>
      let x := c.obj k
      -- ESI is sent as the node's own fault confinement state requires (R285)
      let m := { x.msg with esi := x.msg.fdf && c.fc == 1 }
      let c := { c.setObj k { x with attempts := x.attempts + 1, started := true, msg := m } with onBus := some k }
      let s := s.field fun f => f.setChan ch c
      if x.started then s else s.reportStart x.standing x.slot x.seq
    | none => s
  else s)

/-- CAN_ATTEMPT_END (R290, R294, R295): SENT, another attempt, or EXHAUSTED. -/
def execCanAttemptEnd (ch : Fin 8) (result : CanResult) (s : State) : Host.Outcome State Fault Refusal :=
  let c := s.fs.chan ch
  let sends := canSends s.cfg ch
  .next (match c.onBus with
    | none => s
    | some k =>
      let x := c.obj k
      let put (s : State) (x : TxObj) : State :=
        s.field fun f => f.setChan ch { (f.chan ch).setObj k x with onBus := none }
      let retry (s : State) (err : Nat) : State :=
        if !sends then put s { x with st := .removed, err := err, stamp := s.now }
        else if x.attempts ≤ x.retry then put s { x with st := .retrying, err := err }
        else
          (put s { x with st := .exhausted, err := err, stamp := s.now }).updBoth fun p =>
            (p.bump (Reg.CAN_EXHAUST_CNT ch) 15 0).evt (Reg.CAN_EVT ch) 10
      match result with
      | .ok =>
        let s := put s { x with st := .sent, stamp := s.now }
        let s := s.updBoth fun p => p.bump (Reg.CAN_TX_OK ch) 15 0
        s.canCounts ch (c.tec - 1) c.rec_
      | .lost => retry s 6
      | .error code dominant data exempt =>
        let quiet := (c.fc == 1 && code == 4 && !dominant) || exempt
        let s := retry (s.canError ch code data) code
        if quiet then s else s.canCounts ch (c.tec + 8) c.rec_)

/-- The payloads of the INPUT blocks that carry a received CAN frame (R292). -/
def canBlocks (ch : Nat) (m : CanMsg) : List (List Byte) :=
  let flags := m.ide.toNat + 2 * m.fdf.toNat + 4 * m.brs.toNat + 8 * m.esi.toNat + 16 * m.rtr.toNat
  [[0x40, BitVec.ofNat 8 ch, BitVec.ofNat 8 flags, BitVec.ofNat 8 m.dlc] ++ leBytes 4 m.ident ++ slice m.data 0 32] ++
    (if m.data.length ≤ 32 then [] else [[0x41, BitVec.ofNat 8 ch, 0, 0, 0, 0, 0, 0] ++ slice m.data 32 32])

/-- CAN_FRAME_RECEIVE (R292, R293): both planes count the frame, refresh its points and store it. -/
def execCanFrameReceive (ch : Fin 8) (msg : CanFrame) (s : State) : Host.Outcome State Fault Refusal :=
  let c := s.fs.chan ch
  let m := canMsg msg
  .next (if s.canHears ch then
    -- above 127 the standard sets REC to a value between 119 and 127, which it leaves open
    let (n, s) := s.draw
    let rec_ := if c.rec_ > 127 then 119 + Config.free n % 9 else c.rec_ - 1
    let s := s.canCounts ch c.tec rec_
    let s := (canBlocks ch m).foldl (fun s b => s.sendInput s.now (canTag s.cfg ch) (0x300 + ch) b) s
    s.updBoth fun p => ((p.bump (Reg.CAN_RX_CNT ch) 15 0).canPoints ch m).canStore ch m s.now
  else s)

/-- CAN_RECOVERED (R296): the end of bus-off recovery, after 128 occurrences, which RECOV shows until the next bus-off. -/
def execCanRecovered (ch : Fin 8) (s : State) : Host.Outcome State Fault Refusal :=
  let c := s.fs.chan ch
  .next (if c.fc = 2 ∧ c.recovering then
    let s := s.field fun f => f.setChan ch { c with tec := 0, rec_ := 0, fc := 0, recovering := false, recov := 128 }
    s.updBoth fun p => (p.evt (Reg.CAN_EVT ch) 13).stage 0x3B (BitVec.ofNat 6 (canTag p.cfg ch)) 1
      ([BitVec.ofNat 8 ch, 0, 0, 0] ++ leBytes 8 s.now)
  else s)

/-- ERROR_FRAME (R294): an error while the channel receives raises REC by 1, and by 8 where a dominant bit follows its own error
flag. -/
def execErrorFrame (ch : Fin 8) (code : Fin 8) (primary dataPhase : Bool) (s : State) : Host.Outcome State Fault Refusal :=
  let c := s.fs.chan ch
  .next (if s.canHears ch then
    (s.canError ch code dataPhase).canCounts ch c.tec (min 255 (c.rec_ + 1 + if primary then 8 else 0))
  else s)

/-- INTEGRATION (R286): 11 consecutive recessive bits after an enable or a change of bit time. -/
def execIntegration (ch : Fin 8) (s : State) : Host.Outcome State Fault Refusal :=
  .next (if bit (s.cfg (Reg.CAN_CTRL ch)) 0 then s.field fun f => f.setChan ch { f.chan ch with integrated := true } else s)

/-- Switch a connector off for an overcurrent: for 1 s, or for good at the fifth in a row (R446). -/
def State.supplyOff (s : State) (c : Nat) : State :=
  let x := s.fs.supply c
  let tt := s.ttNow
  let runs := if x.runs = 0 ∨ x.onAt + 60000000000 ≤ tt then 1 else x.runs + 1
  s.supplySet c { x with on := false, runs := runs, latched := decide (runs ≥ 5),
                         retryAt := if runs ≥ 5 then none else some (tt + 1000000000) }

/-- FIELD_SUPPLY_OVERCURRENT (R446). -/
def execFieldSupplyOvercurrent (c : Fin 4) (s : State) : Host.Outcome State Fault Refusal :=
  .next (if (s.fs.supply c).on then s.supplyOff c else s)

/-- FIELD_SUPPLY_RETRY (R446): 1 s after an overcurrent switch-off. -/
def execFieldSupplyRetry (c : Fin 4) (s : State) : Host.Outcome State Fault Refusal :=
  let x := s.fs.supply c
  .next (match x.retryAt with
    | some t => if t ≤ s.ttNow ∧ !x.on then s.supplySet c { x with on := true, retryAt := none, onAt := s.ttNow } else s
    | none => s)

/-- FIELD_SUPPLY_TOTAL_OVERLOAD (R446): the connector with the highest of the measured currents is switched off. -/
def execFieldSupplyTotalOverload (ma : List Nat) (s : State) : Host.Outcome State Fault Refusal :=
  let on := (List.range 4).filter fun c => (s.fs.supply c).on
  let order := sortBy (fun c => ma.foldl max 0 - ma.getD c 0) on
  .next (match order with
    | c :: _ => s.supplyOff c
    | [] => s)

end Sys2Proof.Machine
end

