-- ==== Sys2Proof/Machine/Launch.lean ====
section
/-!
DEFINITION. Launches: building one from an action (R137, R138), its Launch Fabric blocks (R119, R120), the field side's
launch queue, release and start (R97, R111, R118).
-/
namespace Sys2Proof.Machine

/-! ### Substitution (R136, R137) -/

/-- Write bytes over data at an offset; bytes beyond the data are not written. -/
def putBytes (d : List Byte) (off : Nat) (b : List Byte) : List Byte :=
  (b.zipIdx).foldl (fun d x => d.set (off + x.2) x.1) d

/-- A number in the width and order of a descriptor. -/
def sdBytes (d : Nat) (v : Int) : List Byte :=
  let n := toTwos 64 v
  if sdLittle d then leBytes (sdWidth d) n else beBytes (sdWidth d) n

/-- Big-endian 16-bit words of bytes; an odd last byte is padded with 0. -/
def beWords : List Byte → List Nat
  | a :: b :: r => (a.toNat * 256 + b.toNat) :: beWords r
  | [a] => [a.toNat * 256]
  | [] => []

/-- Ones' complement sum of 16-bit numbers. -/
def onesSum (l : List Nat) : Nat := l.foldl (fun a x => let s := a + x; s % 65536 + s / 65536) 0

/-- CSUM16 (R137): `seed` from the template, over the data from `start` on with the two bytes at `off` counted as 0. -/
def csum16 (seed start off : Nat) (data : List Byte) : Nat :=
  let zeroed := putBytes data off [0, 0]
  let s := onesSum (seed :: beWords (zeroed.drop start))
  if s = 65535 then 65535 else 65535 - s

/-- What a POINT descriptor sends: the raw value of an output kind, the value of any other, 0 for an EMPTY point. -/
def Plane.pointSent (p : Plane) (i : Nat) : Int :=
  let e := p.pm i
  if e.kind = 0 then 0 else if [2, 4, 6, 8].contains e.kind then e.scaleOut (p.value i) else p.value i

/-- What a QUALITY descriptor sends. -/
def Plane.qualitySent (p : Plane) (i : Nat) : Nat := if (p.pm i).kind = 0 then 3 else p.quality i

/-- Fill one descriptor into the data. -/
def Plane.fillOne (p : Plane) (can : Bool) (cmdval tick seq : Nat) (data : List Byte) (d : Nat) : List Byte :=
  let put (v : Int) : List Byte := putBytes data (sdOfs d) (sdBytes d v)
  match sdSrc d with
  | 1 => put cmdval
  | 2 =>
    let e := p.pm (sdArg d)
    if can ∧ e.kind = 6 then sigWrite e.sig e.big data (toTwos 64 (p.pointSent (sdArg d))) else put (p.pointSent (sdArg d))
  | 3 => put (p.qualitySent (sdArg d))
  | 4 => put tick
  | 5 => put seq
  | _ => data

/-- Fill in a head's descriptors in order, then its CSUM16. -/
def Plane.fill (p : Plane) (h : Head) (template : List Byte) (cmdval tick seq : Nat) : List Byte :=
  let data := h.subst.foldl (p.fillOne (h.kind == 2) cmdval tick seq) template
  match h.subst.find? fun d => sdSrc d == 6 with
  | some d => putBytes data (sdOfs d) (beBytes 2 (csum16 (ofBe (slice template (sdOfs d) 2)) (sdArg d) (sdOfs d) data))
  | none => data

/-! ### Building -/

/-- A built launch: its tick, path, tag, key (R118) and the payloads of its blocks. -/
structure Built where
  tick : Nat
  path : Nat
  tag : Nat
  standing : Bool
  slot : Nat
  seq : Nat
  parts : List (List Byte)
deriving DecidableEq, Repr

/-- Payloads of a frame: 40 bytes per block. -/
def frameParts (d : List Byte) : List (List Byte) := (List.range ((d.length + 39) / 40)).map fun i => (d.drop (40 * i)).take 40

/-- Payloads of a CAN frame (R119): identifier with IDE, FDF and BRS in [31:29], DLC, then up to 32 data bytes; the rest in a second
block. -/
def canParts (ident : Nat) (ide fdf brs : Bool) (dlc : Nat) (d : List Byte) : List (List Byte) :=
  let head := leBytes 4 (ident + 2 ^ 29 * ide.toNat + 2 ^ 30 * fdf.toNat + 2 ^ 31 * brs.toNat) ++ [BitVec.ofNat 8 dlc, 0, 0, 0]
  if d.length ≤ 32 then [head ++ d] else [head ++ d.take 32, d.drop 32]

/-- The CAN frame that payloads carry. -/
def partsCan (parts : List (List Byte)) : CanMsg :=
  let a := parts.headD []
  let w := ofLe (slice a 0 4)
  let dlc := ofLe (slice a 4 1) % 16
  let fdf := w / 2 ^ 30 % 2 == 1
  let n := if fdf then dlcBytes dlc else min 8 dlc
  { ident := w % 2 ^ 29, ide := w / 2 ^ 29 % 2 == 1, fdf := fdf, brs := w / 2 ^ 31 % 2 == 1, dlc := dlc,
    data := slice ((a.drop 8).take 32 ++ (parts.getD 1 []).take 32) 0 n }

/-- The payloads of a head with its body entries, at a tick with a command value and a SEQ (R137). -/
def Plane.headParts (p : Plane) (copy : List (List Word)) (cmdval tick seq : Nat) : List (List Byte) :=
  let h := headDecode (wordBytes (copy.headD []))
  let d := p.fill h (bodyBytes copy h.dataLen) cmdval tick seq
  if h.kind = 2 then canParts h.ident h.ide h.fdf h.brs h.dlc d else frameParts d

/-- The launch of a command slot (R138). -/
def Plane.buildSlot (p : Plane) (n : Nat) : Built :=
  let x := p.slot n
  { tick := x.launch, path := x.path, tag := x.tag.toNat, standing := false, slot := n, seq := x.seq,
    parts := match x.action with
      | .table _ v copy => p.headParts copy v x.launch x.seq
      | .pse _ on => [[BitVec.ofNat 8 on.toNat]]
      | .can _ ident ide dlc data => canParts ident ide false false dlc data }

/-- A standing firing of a head's entries at a tick, or of a loop through its head; `id` names the source (R119) and `seq` is its count. -/
def Plane.buildStanding (p : Plane) (copy : List (List Word)) (tick id seq : Nat) : Built :=
  let h := headDecode (wordBytes (copy.headD []))
  { tick := tick, path := h.path, tag := h.tag, standing := true, slot := 0xFF, seq := id, parts := p.headParts copy 0 tick seq }

/-- The entries of a head's firing at a tick: as its build boundary found them, where that has come, otherwise as they are applied (R143). -/
def Plane.firingCopy (p : Plane) (j tick : Nat) : List (List Word) :=
  match p.weir.copies.find? fun e => e.1 == j && e.2.1 == tick with
  | some e => e.2.2
  | none => atCopy p.cfg j

/-- The launch of an applied intent (R150), under a source number of its own. (DESIGN CHOICE, unsafe: assumption 58.) -/
def Plane.buildIntent (p : Plane) (port tick : Nat) : Built :=
  { tick := tick, path := 0x100 + port, tag := portTag p.cfg port, standing := true, slot := 0xFF, seq := 0x10000 + port,
    parts := [[BitVec.ofNat 8 (fld (p.cfg (Reg.PORTG_STATE (port / 8) (port % 8))) 1 0)]] }

/-! ### Blocks (R119, R120) -/

/-- The fields of a received block. -/
structure BlockFields where
  type : Nat
  flags : Nat
  lseq : Nat
  stamp : Nat
  slot : Nat
  tag : Nat
  path : Nat
  seq : Nat
  payload : List Byte
deriving DecidableEq, Repr

/-- Read a block; `none` where its length or CRC-32C is wrong. -/
def blockRead (b : List Byte) : Option BlockFields :=
  let n (o k : Nat) : Nat := ofLe (slice b o k)
  if b.length ≠ 64 ∨ crc32c (b.take 60) ≠ n 60 4 then none
  else some { type := n 0 1, flags := n 1 1, lseq := n 2 2, stamp := n 4 8, slot := n 12 1, tag := n 13 1 % 64,
              path := n 14 2, seq := n 16 4, payload := slice b 20 40 }

/-- Put a command into the field side's list of what is under way. (DESIGN CHOICE, unsafe: assumption 10.) -/
def State.later (s : State) (at_ : Nat) (c : Instr) : State := s.field fun f => { f with due := f.due ++ [(at_, c)] }

/-- A link's number as the commands carry it. -/
def linkFin (l : Nat) : Fin 2 := ⟨l % 2, Nat.mod_lt _ (by decide)⟩

/-- One more block on a link against the half-cycle of its launch tick (R102): `k` is 0 for the last completed half-cycle, 1 for the one
under way, 2 for the next. -/
def WeirSt.countLoad (w : WeirSt) (link k : Nat) : List (List Nat) :=
  let l := (w.load ++ [[0, 0], [0, 0], [0, 0]]).take 3
  l.set k ((l.getD k [0, 0]).set link ((l.getD k [0, 0]).getD link 0 + 1))

/-- A first send or a first re-send takes its booked place; a second re-send and an ABORT block one of the background reserve (R104). -/
def WeirSt.takeReserve (w : WeirSt) (link : Nat) (needed : Bool) : List Nat :=
  if needed then w.reserve.set link (w.reserve.getD link 0 + 1) else w.reserve

/-- Send one block of a launch on a link: it takes the link's next LSEQ, is kept until acknowledged, and arrives a tick later. An armed
error takes the next launch block of its link, a re-send too (R124). -/
def State.sendBlock (s : State) (i : PlaneId) (link tries : Nat) (src : LaunchSrc) (idx len : Nat)
    (mk : Nat → Bool → List Byte) : State :=
  let w := (s.plane i).weir
  let lseq := w.lseqTx.getD link 0
  let bad := w.inject == some link && decide (ofLe ((mk lseq false).take 1) ≤ 2)
  let bytes := mk lseq bad
  let s := s.upd i fun p => p.updWeir fun w =>
    { w with lseqTx := w.lseqTx.set link ((lseq + 1) % 65536), inject := if bad then none else w.inject,
             reserve := w.takeReserve link (tries == 3 || ofLe (bytes.take 1) == 3),
             load := w.countLoad link (halfOf (ofLe (slice bytes 4 8)) + 1 - halfOf s.now),
             tx := w.tx ++ [{ link := link, lseq := lseq, idx := idx, tries := tries, src := src, bytes := bytes, len := len }] }
  s.later (s.now + 1) (.lfabBlockReceive i true (linkFin link) bytes)

/-- The link that carries a source's sends and the number of the attempt: the one booked, or, where that is dead, the live one, on which the blocks
take their reserved re-send places with their first attempt counted as failed (R121). -/
def WeirSt.linkOf (w : WeirSt) (src : LaunchSrc) (tick : Nat) : Option (Nat × Nat) :=
  let l := match w.books.find? fun b => b.src == src && b.tick == tick with
    | some b => b.link
    | none => linkFor w (halfOf tick)
  if w.linkUp.getD l false then some (l, 1) else if w.linkUp.getD (1 - l) false then some (1 - l, 2) else none

/-- Send a built launch from a plane that drives (R28, R120): its first block LAUNCH, the others CONT, the last marked LAST. No block goes for a launch
tick before the plane's claim stamp C (R250). -/
def State.transmit (s : State) (i : PlaneId) (src : LaunchSrc) (b : Built) : State :=
  match (if b.tick < (s.plane i).rd64 Reg.RED_CLAIM_AT then none else (s.plane i).weir.linkOf src b.tick) with
  | none => s
  | some (link, tries) =>
    ((b.parts.zipIdx).foldl (fun s (x : List Byte × Nat) =>
      let flags := (tries - 1) + 2 * i.num + (if x.2 + 1 = b.parts.length then 4 else 0) + (if b.standing then 8 else 0)
      s.sendBlock i link tries src x.2 x.1.length
        (blockBytes (if x.2 = 0 then 1 else 2) flags · b.tick b.slot b.tag b.path b.seq x.1 ·)) s)

/-- Whether the Authority Unit acts on a plane's blocks (R28, R245). -/
def AuthUnit.acts (u : AuthUnit) (i : PlaneId) : Bool := u.holder == some i || u.old == some i

/-- Whether it still does at a stamp: the plane's lease has not reached its expiry, nor its RELEASE its stamp D (R245). -/
def AuthUnit.actsAt (u : AuthUnit) (i : PlaneId) (now : Nat) : Bool :=
  ((u.holder == some i && decide (now < u.expiry)) || (u.old == some i && decide (now < u.oldExpiry))) &&
    !(u.release.any fun r => r.1 == i && decide (r.2 ≤ now))

/-! ### The launch queue -/

/-- Whether a queued launch has a key. -/
def Launch.is (l : Launch) (i : PlaneId) (standing : Bool) (slot seq tick : Nat) : Bool :=
  l.plane == i && l.standing == standing && l.slot == slot && l.seq == seq && l.tick == tick

/-- Whether every block of a launch has arrived. -/
def Launch.complete (l : Launch) : Bool :=
  match l.last with
  | some n => (List.range (n + 1)).all fun k => l.parts.any fun e => e.1 == k
  | none => false

/-- The payloads of a launch in order. -/
def Launch.payloads (l : Launch) : List (List Byte) := l.parts.map Prod.snd

/-- How the field side last dealt with the command `seq` of a slot: released, or removed before its release. Older dealings than the booking model's
length are another command's. -/
def FieldSide.ended (f : FieldSide) (slot seq now : Nat) : Option Bool :=
  match (Tab.get (fun _ => none) f.ends slot : Option (Nat × Nat × Bool)) with
  | some (q, t, r) => if q = seq ∧ now ≤ t + 131072 then some r else none
  | none => none

/-- Note that a command was released or removed. -/
def FieldSide.setEnded (f : FieldSide) (slot seq now : Nat) (released : Bool) : FieldSide :=
  { f with ends := Tab.put (fun _ => none) f.ends slot (some (seq, now, released)) }

/-- The next LSEQ expected from a plane on a link. -/
def FieldSide.expect (f : FieldSide) (i : PlaneId) (link : Nat) : Nat := f.lseqRx.getD (2 * i.num + link) 0
def FieldSide.setExpect (f : FieldSide) (i : PlaneId) (link n : Nat) : FieldSide := { f with lseqRx := f.lseqRx.set (2 * i.num + link) (n % 65536) }

/-- Take a launch block into the queue (R120), or discard and count it for want of the lease (R28). A block of a command already released or removed
changes nothing (R114, R118). -/
def State.queueBlock (s : State) (i : PlaneId) (b : BlockFields) (place : Option (Nat × Nat)) : State :=
  if !s.fs.au.actsAt i s.now then
    s.upd i fun p => (p.bump Reg.LFAB_REJECT_CNT 15 0).evt Reg.LFAB_EVT 11
  else if b.flags / 8 % 2 = 0 ∧ (s.fs.ended b.slot b.seq s.now).isSome then s
  else
    let standing := b.flags / 8 % 2 == 1
    let is (l : Launch) : Bool := l.is i standing b.slot b.seq b.stamp
    let old : Launch := match s.fs.lq.find? is with
      | some l => l
      | none => { plane := i, standing := standing, slot := b.slot, seq := b.seq, tick := b.stamp, path := b.path,
                  tag := BitVec.ofNat 6 b.tag }
    let (idx, len) := match place with
      | some x => x
      | none => (if b.type = 1 then 0 else old.parts.length, 40)
    let new : Launch := { old with parts := Tab.ins old.parts idx (b.payload.take len),
                                   last := if b.flags / 4 % 2 = 1 then some idx else old.last }
    s.field fun f => { f with lq := f.lq.filter (fun l => !is l) ++ [new] }

/-- Withdraw queued launches that satisfy `q` and are not released. -/
def State.withdraw (s : State) (q : Launch → Bool) : State :=
  s.field fun f => { f with lq := f.lq.filter fun l => l.released || !q l }

/-- Withdraw the launch of a command, from both planes' blocks, those still under way too. -/
def State.withdrawCmd (s : State) (slot seq : Nat) : State :=
  (s.withdraw fun l => !l.standing && l.slot == slot && l.seq == seq).field fun f => f.setEnded slot seq s.now false

/-- A REPORT block on a launch (R119): its code and the stamp concerned. -/
def State.sendReport (s : State) (l : Launch) (code stamp : Nat) : State :=
  s.fieldSend 0x82 l.plane.num l.standing l.tick l.slot l.tag.toNat l.path l.seq
    ([BitVec.ofNat 8 code] ++ List.replicate 7 0 ++ leBytes 8 stamp)

/-- Put a frame on the wire of a port or uplink (128 + i). -/
def State.wire (s : State) (out : Nat) (frame : List Byte) : State :=
  s.field fun f => { f with fab := { f.fab with sent := f.fab.sent ++ [(out, frame)] } }

/-- A tick of the field side in ns. -/
def FieldSide.tickNs (f : FieldSide) : Nat := f.per / 65536

/-- How long a frame of `n` bytes, check sequence included, occupies the wire of a port or uplink, in ns, with its preamble and inter-frame gap (R101). -/
def FieldSide.frameNs (f : FieldSide) (out n : Nat) : Nat :=
  if out < 128 then (n + 20) * (if (f.port out).speed = 1000 then 8 else 80)
  else if (f.uplink (out - 128)).tenG then ((n + 20) * 8 + 9) / 10 else (n + 20) * 8

/-- The true time, in ns, from which a frame can start on an egress (R268). -/
def State.wireAt (s : State) (out : Nat) : Nat := max s.ttNow (Tab.get (fun _ => 0) s.fs.fab.freeAt out)

/-- A frame starts on an egress as soon as its wire is free, and occupies it (R268). -/
def State.occupy (s : State) (out : Nat) (frame : List Byte) : State :=
  let end_ := s.wireAt out + s.fs.frameNs out frame.length
  (s.field fun f => { f with fab := { f.fab with freeAt := Tab.put (fun _ => 0) f.fab.freeAt out end_ } }).wire out frame

/-- Put a launched frame on the wire: the MAC appends its check sequence (R137). -/
def State.wireLaunch (s : State) (out : Nat) (data : List Byte) : State := s.occupy out (data ++ leBytes 4 (crc32 data))

/-- Send a booked intent of a port (R150). -/
def State.sendIntent (s : State) (i : PlaneId) (port : Nat) : State :=
  let p := s.plane i
  match p.weir.books.find? fun b => b.src == .intent port with
  | some b => if p.isActive ∧ halfOf b.tick ≤ halfOf s.now + 1 then s.transmit i (.intent port) (p.buildIntent port b.tick) else s
  | none => s

/-- A port's intent whose launch was lost is booked again, and sent where its half-cycle's send time has passed: it stays pending until it is launched
(R150). (DEDUCED, unsafe: assumption 31.) -/
def State.retryIntent (s : State) (port : Nat) : State :=
  let s := s.updBoth fun p => p.bookIntent s.fs port (halfOf s.now)
  match s.active? with
  | some i => s.sendIntent i port
  | none => s

/-- A launch that is not made (R100, R141): its command breaks, its firing is missed, or its intent is tried again. -/
def State.notMade (s : State) (l : Launch) (cause : Nat) : State :=
  if l.standing ∧ l.seq ≥ 0x10000 then (s.sendReport l 6 s.now).retryIntent (l.seq - 0x10000)
  else (s.sendReport l 6 s.now).updBoth fun p =>
    if !l.standing then p.failed l.slot l.seq cause s.now
    else if l.seq ≥ 0x8000 then p.missed true (l.seq - 0x8000) cause l.tick l.tag.toNat true
    else p.missed false l.seq cause l.tick l.tag.toNat true

/-- Reports of a release (R118): the command is LAUNCHED; a ONCE_AT head has FIRED (R141); an intent's booking ends. -/
def State.reportRelease (s : State) (l : Launch) : State :=
  (s.sendReport l 1 s.now).updBoth fun p =>
    if !l.standing then p.released l.slot l.seq else
    let p := p.updWeir fun w => { w with fired := (l.seq, l.tick) :: w.fired }
    let p := if l.seq < 0x8000 then p.bump Reg.ACT_FIRE_CNT 15 0 else p
    if l.seq ≥ 0x10000 then
      p.updWeir fun w => { w.unbook (.intent (l.seq - 0x10000)) with
                           intentBooks := w.intentBooks.filter fun e => e.1 != l.seq - 0x10000 }
    else if l.seq < 0x8000 ∧ (atHead p.cfg l.seq).fire = 1 ∧ (atHead p.cfg l.seq).timing = l.tick ∧ (p.head l.seq).st = .armed then
      (p.setHead l.seq { p.head l.seq with st := .fired }).evt Reg.ACT_EVT 11
    else p

/-- Whether an uplink holds its transmission (R276). -/
def Uplink.paused (u : Uplink) : Bool := u.pauseUntil.isSome

/-- Start the held launches of an uplink in launch-tick order, as many as find its wire free within the tick (R276). -/
def State.startHeld (s : State) (u : Nat) : State :=
  let held := (s.fs.uplink u).held
  let s := s.field fun f => f.setUplink u { f.uplink u with held := [] }
  held.foldl (fun s k =>
    let (standing, slot, seq, tick) := k
    if s.ttNow + s.fs.tickNs ≤ s.wireAt (128 + u) then s.field fun f => f.setUplink u { f.uplink u with held := (f.uplink u).held ++ [k] }
    else
    let is (l : Launch) : Bool := l.released && l.standing == standing && l.slot == slot && l.seq == seq && l.tick == tick
    match s.fs.lq.find? is with
    | some l =>
      let s := s.wireLaunch (128 + u) l.payloads.flatten
      let s := s.field fun f => { f with lq := f.lq.filter fun l => !is l }
      (s.sendReport l 2 s.now).reportStart standing slot seq
    | none => s) s

/-- Whether a launch has been made already, by its duplicate key: SLOT and CMD_SEQ of a command, source and STAMP of a standing firing (R118). -/
def FieldSide.already (f : FieldSide) (l : Launch) (now : Nat) : Bool :=
  if l.standing then f.made.contains (l.seq, l.tick) else (f.ended l.slot l.seq now).isSome

/-- Note the key of a launch that is made: a command's, and in an overlap that of a standing firing. -/
def FieldSide.noteMade (f : FieldSide) (l : Launch) (now : Nat) : FieldSide :=
  if !l.standing then f.setEnded l.slot l.seq now true
  else if f.au.old.isSome then { f with made := (l.seq, l.tick) :: f.made } else f

/-- Release a complete launch at its tick and make its output (R97, R111, R288). -/
def State.makeLaunch (s : State) (l : Launch) : State :=
  let is (x : Launch) : Bool := x.is l.plane l.standing l.slot l.seq l.tick
  let drop (s : State) : State := s.field fun f => { f with lq := f.lq.filter fun x => !is x }
  if 0x204 ≤ l.path ∧ (freeObj s.cfg (l.path - 0x300) (s.fs.chan (l.path - 0x300))).isNone then
    -- with no transmit object free the launch is not made (R288)
    let s := ((drop s).canPlace (l.path - 0x300) (partsCan l.payloads) l.standing l.slot l.seq l.tick).1
    if l.standing then s.notMade l 6 else s.sendReport l 6 s.now
  else
  let s := (s.field fun f => f.noteMade l s.now).reportRelease l
  let started (s : State) : State := (s.sendReport l 2 s.now).reportStart l.standing l.slot l.seq
  if l.path < 0x80 then started ((drop s).wireLaunch l.path l.payloads.flatten)
  else if l.path < 0x180 then
    let on := (ofLe (slice (l.payloads.headD []) 0 1))
    started ((drop s).commandPort (l.path - 0x100) on)
  else if l.path < 0x204 then
    let u := l.path - 0x200
    let s := s.field fun f => { f with lq := f.lq.map fun x => if is x then { x with released := true } else x }
    let s := s.field fun f => f.setUplink u { f.uplink u with held := (f.uplink u).held ++ [(l.standing, l.slot, l.seq, l.tick)] }
    if (s.fs.uplink u).paused ∨ s.fs.inGap s.now then s else s.startHeld u
  else ((drop s).canPlace (l.path - 0x300) (partsCan l.payloads) l.standing l.slot l.seq l.tick).1

/-- The field side reaches a queued launch's tick (R28, R100, R118). -/
def State.releaseLaunch (s : State) (l : Launch) : State :=
  let is (x : Launch) : Bool := x.is l.plane l.standing l.slot l.seq l.tick
  let drop (s : State) : State := s.field fun f => { f with lq := f.lq.filter fun x => !is x }
  if !s.fs.au.actsAt l.plane s.now then
    ((drop s).sendReport l 5 s.now).upd l.plane fun p => (p.bump Reg.LFAB_REJECT_CNT 15 0).evt Reg.LFAB_EVT 11
  else if s.fs.already l s.now then drop s
  else if !l.complete then (drop s).notMade l 2
  else if pathFails s.fs l.path && !(l.standing && decide (0x10000 ≤ l.seq)) then (drop s).notMade l 3
  else s.makeLaunch l

/-! ### Sending (R120, R137) -/

/-- Send a command's launch: the slot becomes SENT; the plane that drives sends the blocks. -/
def State.sendSlot (s : State) (i : PlaneId) (n : Nat) : State :=
  let x := (s.plane i).slot n
  if (x.st = .booked ∨ x.st = .sent) ∧ halfOf x.launch ≤ halfOf s.now + 1 then
    let s := s.upd i fun p => p.setSlot n { x with st := .sent }
    if (s.plane i).isActive then s.transmit i (.slot n) ((s.plane i).buildSlot n) else s
  else s

/-- Send a standing head's firing of the next half-cycle: it counts in both planes, and the plane that drives sends it. -/
def State.sendHead (s : State) (i : PlaneId) (j : Nat) : State :=
  let p := s.plane i
  match headTick (atHead p.cfg j) (halfOf s.now + 1) with
  | none => s
  | some t =>
    if (p.head j).st = .armed ∧ p.weir.books.any fun b => b.src == .head j && b.tick == t then
      let seq := (p.head j).sched + 1
      let s := s.upd i fun p => (p.setHead j { p.head j with sched := seq }).updWeir fun w => { w with copies := w.copies ++ [(j, t, atCopy p.cfg j)] }
      if (s.plane i).isActive then s.transmit i (.head j) ((s.plane i).buildStanding (atCopy p.cfg j) t j seq) else s
    else s

end Sys2Proof.Machine
end

