-- ==== Sys2Proof/Machine/Redundancy.lean ====
section
/-!
DEFINITION. The two planes (chapter 10): roles, the sync link, digests and self-check, the Authority Unit and its reports,
the switch-over, joining and the Swap Drill.
-/
namespace Sys2Proof.Machine

/-! ### Roles (R239) -/

/-- Set a plane's role; SYS.EVT.ROLE_CHANGE where PLANE.ACTIVE changes. -/
def Plane.setRole (p : Plane) (r : Role) : Plane :=
  let was := p.isActive
  let p := { p with red := { p.red with role := r } }
  if was = p.isActive then p else p.evt Reg.SYS_EVT 12

/-- Change a plane's redundancy state. -/
def Plane.updRed (p : Plane) (f : RedSt → RedSt) : Plane := { p with red := f p.red }

/-- Leave step (R239, R241, R243): a standby goes to RESYNC and rejoins. -/
def Plane.leaveStep (p : Plane) (tt : Nat) : Plane :=
  if p.red.role = .standby then
    let p := p.updWeir fun w => { w with scanQ := [] }
    ((p.setRole .resync).updRed fun r => { r with phase := 0, joinCut := none, retryAt := some tt, leaveAt := none }).evt Reg.RED_EVT 10
  else p

/-- The standby, if any, leaves step; so does an old holder in an overlap with its successor. -/
def State.standbyLeaves (s : State) : State :=
  let tt := s.ttNow
  s.updBoth fun p => (p.leaveStep tt).updRed fun r => { r with kept := false }

/-- A standby leaves step at the boundary that a mismatch has named (R243). -/
def State.leaveDue (s : State) : State :=
  let tt := s.ttNow
  s.updBoth fun p => if p.red.leaveAt.any fun t => decide (t ≤ s.now) then (p.leaveStep tt).updRed fun r => { r with leaveAt := none } else p

/-- Whether a plane is in step (R239). -/
def State.inStep (s : State) (i : PlaneId) : Bool :=
  match (s.plane i).red.role with
  | .standby => true
  | .active => (s.plane i.other).red.role == .standby
  | _ => false

/-! ### LEASE blocks (R246) -/

/-- A LEASE block of a plane. -/
def Plane.leaseBlock (p : Plane) (op lseq stamp releaseAt : Nat) (pulses : List Nat) : List Byte :=
  let auth := p.cfg Reg.RED_AUTH
  let last := (p.weir.nextSeq + 2 ^ 32 - 1) % 2 ^ 32
  let payload := [BitVec.ofNat 8 op, BitVec.ofNat 8 (fld auth 0 0), BitVec.ofNat 8 (fld auth 11 8), 0] ++
    leBytes 2 (fld auth 24 16) ++ [0, 0] ++ leBytes 8 releaseAt ++
    ((List.range 8).map fun n => BitVec.ofNat 8 (pulses.getD n 0)) ++ leBytes 4 p.red.leaseSeq
  blockBytes 4 (2 * p.id.num) lseq stamp 0xFF 0 0x0400 last payload

/-- Send a LEASE block over the first live link: it takes the link's next LSEQ, is kept until acknowledged (R120), and reaches the Authority Unit a
tick later. It is carried outside the booked capacity. -/
def State.sendLease (s : State) (i : PlaneId) (op releaseAt : Nat) (pulses : List Nat) (mk : List Byte → Instr) : State :=
  let p := s.plane i
  match p.liveLink with
  | none => s
  | some link =>
    let lseq := p.weir.lseqTx.getD link 0
    let b := p.leaseBlock op lseq s.now releaseAt pulses
    let s := s.upd i fun p => (p.updRed fun r => { r with leaseSeq := (r.leaseSeq + 1) % 2 ^ 32, claiming := r.claiming || op == 2 }).updWeir
      fun w => { w with lseqTx := w.lseqTx.set link ((lseq + 1) % 65536),
                        tx := w.tx ++ [{ link := link, lseq := lseq, idx := 0, tries := 1, src := .lease, bytes := b }] }
    s.later (s.now + 1) (mk b)

/-- A LEASE block has come over its link: it is acknowledged. -/
def State.leaseCame (s : State) (block : List Byte) : State :=
  [PlaneId.a, .b].foldl (fun s i =>
    match (s.plane i).weir.tx.find? fun t => t.src == .lease && t.bytes == block with
    | some t => (s.upd i fun p => p.updWeir fun w => { w with tx := w.tx.filter fun x => !(x.link == t.link && x.lseq == t.lseq) }).field
        fun f => f.setExpect i t.link (t.lseq + 1)
    | none => s) s

/-- Send CLAIM; send RELEASE for stamp `d`. -/
def State.sendClaim (s : State) (i : PlaneId) : State := s.sendLease i 2 0 [] .claim
def State.sendRelease (s : State) (i : PlaneId) (d : Nat) : State := s.sendLease i 3 d [] .release

/-- The active plane yields at the next half-cycle boundary (R243): both planes note it and the RELEASE goes ahead. -/
def State.yield (s : State) (i : PlaneId) : State :=
  let b := (halfOf s.now + 1) * 2048
  (s.updBoth fun p => p.updRed fun r => { r with yield_ := some b }).sendRelease i b

/-- A plane fault's reaction (R435): a standby leaves step; an active plane with a standby in step yields at the next boundary. -/
def State.planeFault (s : State) (i : PlaneId) (n : Nat) : State :=
  let s := s.upd i fun p => p.raise 0 n s.now
  let tt := s.ttNow
  let p := s.plane i
  if p.red.role = .standby then s.upd i fun p => p.leaveStep tt
  else if p.isActive ∧ s.inStep i then s.yield i
  else s

/-! ### The Authority Unit (R245 to R249) -/

/-- The stamp at which a renewal in half-cycle `k` makes the lease end (R248). -/
def leaseEnd (k len : Nat) : Nat := (k + len) * 2048 + 128

/-- HOLDER as reports carry it. -/
def AuthUnit.holderCode (u : AuthUnit) : Nat :=
  let one : Option PlaneId → Nat
    | none => 0
    | some i => i.num + 1
  if u.old.isSome then 3 else one u.holder

/-- The Authority Unit's report to both planes, an INPUT block (R247), which they receive a tick later. -/
def State.report (s : State) (event claim seq : Nat) (queued : Bool := false) : State :=
  let u := s.fs.au
  let q := (List.range 8).map fun n => BitVec.ofNat 8 (if queued then (Tab.get (fun _ => {}) s.fs.pulses n : PulseOut).queued else 0)
  let payload := [0x20, BitVec.ofNat 8 event, BitVec.ofNat 8 u.holderCode, BitVec.ofNat 8 (u.mode + 16 * u.len), 0, 0, 0, 0] ++
    leBytes 8 u.expiry ++ leBytes 8 claim ++ leBytes 4 seq ++ q ++ [0, 0, 0, 0]
  (s.sendInput s.now 0 0x400 payload).later (s.now + 1) (.leaseReport payload s.now)

/-- Change the Authority Unit. -/
def State.updAu (s : State) (f : AuthUnit → AuthUnit) : State := s.field fun g => { g with au := f g.au }

/-- Discard a plane's queued launches with ticks at or after `t`, which are reported DISCARDED and counted (R28, R118, R245). -/
def State.discardFrom (s : State) (i : PlaneId) (t : Nat) : State :=
  let goes (l : Launch) : Bool := !l.released && l.plane == i && decide (t ≤ l.tick)
  ((s.fs.lq.filter goes).foldl (fun s l => (s.sendReport l 5 s.now).upd i fun p => (p.bump Reg.LFAB_REJECT_CNT 15 0).evt Reg.LFAB_EVT 11) s).withdraw goes

/-- Take MODE, LEN and OVL from an accepted block. -/
def AuthUnit.take (u : AuthUnit) (payload : List Byte) : AuthUnit :=
  { u with mode := ofLe (slice payload 1 1) % 2, len := ofLe (slice payload 2 1), ovl := ofLe (slice payload 4 2) }

/-- Pulses passed with a renewal enter the field side's queues; both planes reduce OWED by the count accepted (R192). -/
def State.takePulses (s : State) (payload : List Byte) : State :=
  (List.range 8).foldl (fun s n =>
    let o : PulseOut := Tab.get (fun _ => {}) s.fs.pulses n
    let k := min (ofLe (slice payload (16 + n) 1)) (255 - o.queued)
    if k = 0 then s
    else
      let s := s.field fun f => { f with pulses := Tab.put (fun _ => {}) f.pulses n { o with queued := o.queued + k } }
      s.updBoth fun p =>
        let x : PulseSt := Tab.get (fun _ => {}) p.pulses n
        { p with pulses := Tab.put (fun _ => {}) p.pulses n { x with owed := x.owed - k } }) s

/-- A block from a plane that the field side does not act on is discarded and counted (R28). -/
def State.rejectBlock (s : State) (i : PlaneId) : State := s.upd i fun p => (p.bump Reg.LFAB_REJECT_CNT 15 0).evt Reg.LFAB_EVT 11

/-- RENEW at the Authority Unit. (DEDUCED, unsafe: assumption 34.) -/
def State.auRenew (s : State) (i : PlaneId) (payload : List Byte) : State :=
  let u := s.fs.au
  let seq := ofLe (slice payload 24 4)
  if u.holder = some i then
    let s := s.updAu fun u => let u := u.take payload; { u with expiry := leaseEnd (halfOf s.now) u.len }
    (s.takePulses payload).report 1 0 seq (s.now % 2048 < 64)
  else if u.holder.isSome && (u.mode == 0 || u.old == some i) then s.report 6 0 seq
  else s.rejectBlock i

/-- CLAIM at the Authority Unit. -/
def State.auClaim (s : State) (i : PlaneId) (payload : List Byte) : State :=
  let u := s.fs.au
  let seq := ofLe (slice payload 24 4)
  let grant (u : AuthUnit) : State :=
    let u := u.take payload
    (s.updAu fun _ => { u with holder := some i, expiry := leaseEnd (halfOf s.now) u.len, guardEnd := none, claimAt := s.now + 256 }).report 2
      (s.now + 256) seq
  match u.holder with
  | none => if (match u.guardEnd with
      | some t => decide (s.now < t)
      | none => false) then s.report 6 0 seq else grant u
  | some j =>
    if i = j ∨ u.mode = 0 ∨ u.old.isSome then s.report 6 0 seq
    else grant { u with old := some j, oldExpiry := u.expiry, overlapEnd := s.ttNow + ofLe (slice payload 4 2) * 10000 }

/-- RELEASE at the Authority Unit: kept until its stamp D. (DEDUCED, unsafe: assumption 34.) -/
def State.auRelease (s : State) (i : PlaneId) (payload : List Byte) : State :=
  if s.fs.au.acts i then s.updAu fun u => { u with release := some (i, ofLe (slice payload 8 8)), releaseSeq := ofLe (slice payload 24 4) }
  else s.rejectBlock i

/-- A RELEASE reaches its stamp D; it takes effect where its sender still holds. -/
def State.auReleaseAt (s : State) : State :=
  match s.fs.au.release with
  | none => s
  | some (i, d) =>
    if s.now < d then s
    else if !s.fs.au.acts i then s.updAu fun u => { u with release := none }
    else
      let s := s.discardFrom i d
      let u : AuthUnit := { s.fs.au with release := none }
      let u := if u.old = some i then { u with old := none }
        else match u.old with
          | some j => { u with holder := some j, expiry := u.oldExpiry, old := none }
          | none => { u with holder := none, guardEnd := none, vacantSince := s.now }
      (s.updAu fun _ => u).report 5 0 u.releaseSeq

/-- A LEASE block at the Authority Unit by its OP. -/
def State.auBlock (s : State) (b : List Byte) (op : Nat) : State :=
  match blockRead b with
  | none => s
  | some f =>
    let i : PlaneId := if f.flags / 2 % 2 = 1 then .b else .a
    if f.type ≠ 4 ∨ ofLe (slice f.payload 0 1) ≠ op then s
    else if op = 1 then s.auRenew i f.payload
    else if op = 2 then s.auClaim i f.payload
    else if op = 3 then (s.auRelease i f.payload).auReleaseAt
    else s

/-- A LEASE block that comes by itself; one with a bad CRC is answered with a negative acknowledgement (R120). -/
def State.leaseOf (s : State) (b : List Byte) (op : Nat) : State :=
  match blockRead b with
  | some _ => s.auBlock b op
  | none => [PlaneId.a, .b].foldl (fun s i =>
    match (s.plane i).weir.tx.find? fun t => t.src == .lease with
    | some t => s.later (s.now + 1) (.lfabNakReceive i (linkFin t.link) t.lseq)
    | none => s) s

/-- A holder's lease reaches its expiry (R245, R248). -/
def State.auExpire (s : State) (i : PlaneId) : State :=
  let u := s.fs.au
  if u.old = some i ∧ u.oldExpiry ≤ s.now then
    ((s.discardFrom i u.oldExpiry).updAu fun u => { u with old := none }).report 3 0 0
  else if u.holder = some i ∧ u.expiry ≤ s.now then
    let s := s.discardFrom i u.expiry
    match u.old with
    | some j =>
      (s.updAu fun u => { u with holder := some j, expiry := u.oldExpiry, old := none }).report 3 0 0
    | none =>
      (s.updAu fun u => { u with holder := none, vacantSince := s.now,
                                 guardEnd := if u.mode = 0 then some (s.now + 2048) else none }).report 3 0 0
  else s

/-! ### The switch-over (R118, R250 to R253) -/

/-- Standing launch ticks of a plane in `[lo, hi)` that the field side has not made, with their sources. -/
def Plane.standingIn (p : Plane) (lo hi : Nat) : List (LaunchSrc × Nat) :=
  let g := p.cfg
  let srcs := (p.heads.filter fun e => e.2.st == .armed).map (fun e => LaunchSrc.head e.1) ++
    (p.loops.filter fun e => e.2.booked).map fun e => LaunchSrc.loop e.1
  srcs.flatMap fun src =>
    let id := match src with
      | .head j => j
      | .loop l => 0x8000 + l
      | _ => 0
    ((List.range (halfOf hi + 1 - halfOf lo)).flatMap fun i => standTicks g src (halfOf lo + i)).filter (fun t =>
      decide (lo ≤ t) && decide (t < hi) && !p.weir.fired.contains (id, t)) |>.map fun t => (src, t)

/-- Deal with the launches that lie in the gap from `e` to `c` (R118, R141, R230). The counts are the class G1 commands moved and
the class G0 commands broken. -/
def Plane.takeGap (p : Plane) (e c now : Nat) : Plane × Nat × Nat :=
  let inGap := p.slotsIn fun x => (x.st == .booked || x.st == .sent) && decide (x.launch < c)
  let (p, g1, g0) := inGap.foldl (fun (acc : Plane × Nat × Nat) n =>
    let (p, g1, g0) := acc
    let x := p.slot n
    match x.recovery with
    | some r =>
      if x.moved then (p.finish n .broken 4 now, g1, g0)
      else
        let p := p.setSlot n { x with launch := r, moved := true }
        (p.updWeir fun w => { (w.unbook (.slot n) fun b => !b.recov) with
                              books := (w.unbook (.slot n) fun b => !b.recov).books.map fun b =>
                                if b.src = .slot n then { b with recov := false } else b }, g1 + 1, g0)
    | none => (p.finish n .broken 4 now, g1, g0 + 1)) (p, 0, 0)
  let p := (p.standingIn e c).foldl (fun p x =>
    match x.1 with
    | .head j => p.missed false j 4 x.2 (atHead p.cfg j).tag true
    | .loop l => p.missed true l 4 x.2 (loopTag p.cfg l) true
    | _ => p) p
  (p, g1, g0)

/-- The expiry E of a switch-over (R250): the end of the old holder's authority, or the earliest launch tick of a command not yet released. -/
def Plane.gapFrom (p : Plane) (end_ : Nat) : Nat :=
  (p.slotsIn fun x => x.st == .booked || x.st == .sent).foldl (fun m n => min m (p.slot n).launch) end_

/-- A plane's command slots whose send time has come (R120). -/
def Plane.dueSlots (p : Plane) (now : Nat) : List Nat :=
  p.slotsIn fun x => (x.st == .booked || x.st == .sent) && decide (halfOf x.launch ≤ halfOf now + 1)

/-- A slot number as the commands carry it. -/
def slotFin (n : Nat) : Fin 256 := ⟨n % 256, Nat.mod_lt _ (by decide)⟩

/-- No plane holds the lease and none in step is left to claim (R254). -/
def Plane.noAuthority (p : Plane) (now : Nat) : Plane :=
  if p.red.noAuth then p
  else
    let n := (p.slotsIn Slot.alive).length
    let p := p.breakAll (fun _ => true) 7 now
    let p := (p.weir.scanQ.foldl (fun p q => p.deliveryFail q.origin 0x23 0) p).updWeir fun w => { w with scanQ := [] }
    let p := (p.updRed fun r => { r with noAuth := true }).evt Reg.RED_EVT 14
    let p := p.raise 2 2 now
    p.stage 0x39 0 3 (leBytes 2 n ++ [0, 0] ++ leBytes 8 (p.rd64 Reg.RED_EXPIRY))

/-- A plane's lease ends (R239): STANDBY where in step, otherwise OFFLINE. An old holder in an overlap is in step where it ran so with its
successor (R249). -/
def State.loseLease (s : State) (i : PlaneId) (expired : Bool) : State :=
  if !(s.plane i).isActive then s
  else
    let yielding := (s.plane i).red.yield_.isSome
    let next := if (s.inStep i ∨ (s.plane i).red.kept) ∧ !yielding then Role.standby else .offline
    s.upd i fun p => (p.setRole next).updRed fun r => { r with ownExpired := r.ownExpired || expired, yield_ := none, kept := false }

/-- LAST_SW.CAUSE (R262) of a grant at `g`: a drill or a yield whose boundary has come, a claim for want of renewals, or an expiry. -/
def Plane.switchCause (p : Plane) (g : Nat) : Nat :=
  if p.red.drill.any fun d => decide (d ≤ g) then 4 else if p.red.yield_.any fun b => decide (b ≤ g) then 3 else if p.red.heartClaim then 2 else 1

/-- The active plane hands over (R243, R260): its RELEASE, sent ahead, takes effect and the standby claims. -/
def State.handOver (s : State) (i : PlaneId) : State := s.auReleaseAt.sendClaim i.other

/-! ### Digests (R242 to R244) -/

/-- A plane's self-check (R244): no plane-fault flag is set, and the digest recomputed over the stored output image is the one it sent. -/
def Plane.selfPass (p : Plane) : Bool :=
  p.rd Reg.FAULT_PLANE_FLT == 0 && (p.scan.stored == [] || crc32c p.scan.stored == p.scan.digest)

/-- A digest mismatch in a plane (R243). -/
def Plane.mismatch (p : Plane) (kind stamp own peer : Nat) : Plane :=
  let p := ((p.evt Reg.RED_EVT 8).bump Reg.RED_MISMATCH_CNT 15 0).wrF Reg.RED_MISMATCH 2 0 (kind + 1)
  let p := p.wr64 Reg.RED_MISMATCH_AT stamp
  let p := p.stage 0x38 0 3 ([BitVec.ofNat 8 (kind + 1), 0, 0, 0] ++ leBytes 8 stamp ++ leBytes 4 own ++ leBytes 4 peer)
  let p := if kind = 1 then
      ((p.evt Reg.LOOP_EVT 13).bump Reg.LOOP_MISMATCH_CNT 15 0).stage 0x33 0 3 (leBytes 8 stamp ++ leBytes 4 own ++ leBytes 4 peer)
    else if kind = 2 then
      ((p.evt Reg.TACC_EVT 9).bump Reg.TACC_MISMATCH_CNT 15 0).stage 0x29 0 3 (leBytes 8 p.acct.intv ++ leBytes 4 own ++ leBytes 4 peer)
    else p
  p.updRed fun r => { r with selfOk := p.selfPass, judging := true }

/-- A plane keeps its own digest of a kind and stamp and compares the other plane's, where that has come before it (R242). -/
def Plane.ownDigest (p : Plane) (kind stamp digest : Nat) : Plane :=
  let p := p.updRed fun r => { r with mine := (kind, stamp, digest) :: r.mine.filter fun e => e.1 != kind }
  match p.red.peer.find? fun e => e.1 == kind && e.2.1 == stamp with
  | some e => if e.2.2 = digest ∨ kind = 3 then p else p.mismatch kind stamp digest e.2.2
  | none => p

/-- A plane forms a digest and sends it to the other (R240, R242). -/
def State.sendDigest (s : State) (i : PlaneId) (kind : Fin 4) (stamp digest : Nat) : State :=
  let s := s.upd i fun p => p.ownDigest kind stamp digest
  if s.inStep i ∧ (s.plane i).red.syncUp then
    (s.later (s.now + 1) (.digestReceive i.other kind stamp (BitVec.ofNat 32 digest))).later (stamp + 256) (.digestTimeout i kind stamp)
  else s

/-- A peer digest arrives (R242). -/
def State.peerDigest (s : State) (i : PlaneId) (kind stamp digest : Nat) : State :=
  s.upd i fun p =>
    let p := p.updRed fun r => { r with peer := (kind, stamp, digest) :: r.peer.filter fun e => e.1 != kind }
    match p.red.mine.find? fun e => e.1 == kind && e.2.1 == stamp with
    | some e => if e.2.2 = digest ∨ kind = 3 then p else p.mismatch kind stamp e.2.2 digest
    | none => p

/-- The outcome of the self-checks (R243), each the recomputation's result in a plane without plane faults (R244): after a mismatch its row, and
without one the yield of an active plane or the leaving of a standby that fails. (DEDUCED, unsafe: assumption 34.) -/
def State.judgeSelf (s : State) (activePass standbyPass : Bool) : State :=
  match s.active? with
  | none => s
  | some i =>
    let a := activePass && (s.plane i).selfPass
    let b := standbyPass && (s.plane i.other).selfPass
    let judging := (s.plane i).red.judging || (s.plane i.other).red.judging
    let step := s.inStep i
    let outcome := if a then 1 else if !b then 3 else if step then 2 else 0
    let s := (s.upd i fun p => p.updRed fun r => { r with selfOk := a }).upd i.other fun p => if p.running then p.updRed fun r => { r with selfOk := b } else p
    let s := if !judging then s else s.updBoth fun p =>
      (((p.wrF Reg.RED_MISMATCH 8 8 a.toNat).wrF Reg.RED_MISMATCH 9 9 b.toNat).wrF Reg.RED_MISMATCH 11 10 outcome).updRed fun r => { r with judging := false }
    let s := if a then s else s.upd i fun p => p.raise 0 9 s.now
    let s := if b then s else s.upd i.other fun p => if p.running then p.raise 0 9 s.now else p
    if outcome = 1 ∧ (judging ∨ !b) then
      s.upd i.other fun p => if p.red.role = .standby then p.updRed fun r => { r with leaveAt := some ((halfOf s.now + 1) * 2048) } else p
    else if outcome = 2 then s.yield i
    else if outcome = 3 then s.standbyLeaves
    else s

/-- The sync link goes down (R241): each plane notes it and the standby leaves step. Where the other plane has stopped, the survivor keeps its role, as
in the example of a strict switch-over. (DEDUCED, unsafe: assumption 34.) -/
def State.dropSync (s : State) : State :=
  let both := s.a.running && s.b.running
  let s := s.updBoth fun p =>
    if p.red.syncUp then
      (((p.updRed fun r => { r with syncUp := false }).evt Reg.RED_EVT 13).bump Reg.RED_SYNC_ERR_CNT 15 0).raise 2 5 s.now
    else p
  if both then s.standbyLeaves else s

/-- The sync link is up: frames cross it again and the warning ends. -/
def Plane.syncRises (p : Plane) (now : Nat) : Plane := (p.updRed fun r => { r with syncUp := true, lastFrame := now }).clearFlag 2 5 now

/-! ### Meanings -/

/-- Whether a plane's scan has overrun at a stamp at which the other plane has submitted its image. -/
def Plane.overran (p : Plane) (stamp now : Nat) : Bool :=
  decide (stamp < now) && !(p.red.mine.any fun e => e.1 == 0 && e.2.1 == stamp) &&
    (p.scan.consec != 0 || p.scan.image.any fun im => !im.complete && decide (im.start < stamp))

/-- An overrun in one plane alone shows as a mismatch of the output digest (R217): the plane whose scan overran answers with the digest of its last
image. (DESIGN CHOICE, unsafe: assumption 40.) -/
def State.overrunDigest (s : State) (i : PlaneId) (stamp digest : Nat) : State :=
  let own := (s.plane i).scan.digest
  if !(s.plane i).overran stamp s.now then s
  else (s.upd i fun p => (p.updRed fun r => { r with mine := (0, stamp, own) :: r.mine.filter fun e => e.1 != 0 }).mismatch 0 stamp own digest).upd i.other
    fun p => (p.updRed fun r => { r with peer := (0, stamp, own) :: r.peer.filter fun e => e.1 != 0 }).mismatch 0 stamp digest own

/-- DIGEST_RECEIVE (R217, R242, R243). -/
def execDigestReceive (p : PlaneId) (kind : Fin 4) (stamp : Nat) (digest : Word) (s : State) : Host.Outcome State Fault Refusal :=
  .next (if !(s.plane p).running then s
    else
      let s := s.peerDigest p kind stamp digest.toNat
      if kind = 0 then s.overrunDigest p stamp digest.toNat else s)

/-- DIGEST_TIMEOUT (R242): a digest still missing 256 ticks after its stamp counts as a sync link fault. -/
def execDigestTimeout (p : PlaneId) (kind : Fin 4) (stamp : Nat) (s : State) : Host.Outcome State Fault Refusal :=
  let got := (s.plane p).red.peer.any fun e => e.1 == kind.val && e.2.1 == stamp
  .next (if (s.plane p).running ∧ !got ∧ stamp + 256 ≤ s.now then s.dropSync else s)

/-- SELF_CHECK_RESULT (R243, R244). -/
def execSelfCheckResult (activePass standbyPass : Bool) (s : State) : Host.Outcome State Fault Refusal :=
  .next (s.judgeSelf activePass standbyPass)

/-- SYNC_HEARTBEAT (R240): a heartbeat frame shows each plane that the other has completed start-up. -/
def execSyncHeartbeat (p : PlaneId) (s : State) : Host.Outcome State Fault Refusal :=
  .next (if (s.plane p).running ∧ (s.plane p.other).red.syncUp then
    s.upd p.other fun x => (x.wrF Reg.RED_SYNC 1 1 1).updRed fun r => { r with lastFrame := s.now } else s)

/-- SYNC_DOWN (R241). -/
def execSyncDown (s : State) : Host.Outcome State Fault Refusal := .next s.dropSync

/-- SYNC_LINK_UP (R241): the link is up again; a plane out of step can rejoin. -/
def execSyncLinkUp (s : State) : Host.Outcome State Fault Refusal :=
  .next (s.updBoth fun p => p.syncRises s.now)

/-- The active plane renews, and at a half-cycle boundary passes pulses (R192, R248). -/
def State.renewNow (s : State) (p : PlaneId) : State :=
  let x := s.plane p
  let pulses := if s.now % 2048 < 64 then (List.range 8).map fun n =>
      min (Tab.get (fun _ => {}) x.pulses n : PulseSt).owed (255 - (Tab.get (fun _ => {}) s.fs.pulses n : PulseOut).queued)
    else []
  if x.isActive then s.sendLease p 1 0 pulses .renew else s

/-- RENEW_SEND (R248). -/
def execRenewSend (p : PlaneId) (s : State) : Host.Outcome State Fault Refusal := .next (s.renewNow p)

/-- RENEW (R245). -/
def execRenew (block : List Byte) (s : State) : Host.Outcome State Fault Refusal := .next ((s.leaseCame block).leaseOf block 1)

/-- CLAIM (R245). -/
def execClaim (block : List Byte) (s : State) : Host.Outcome State Fault Refusal := .next ((s.leaseCame block).leaseOf block 2)

/-- RELEASE (R245): takes effect at its stamp D. -/
def execRelease (block : List Byte) (s : State) : Host.Outcome State Fault Refusal := .next ((s.leaseCame block).leaseOf block 3)

/-- LEASE_EXPIRY (R245). -/
def execLeaseExpiry (p : PlaneId) (s : State) : Host.Outcome State Fault Refusal := .next (s.auExpire p)

/-- Whether a plane in step may still claim as standby: in LEASE_STRICT mode a plane whose own lease expired does not (R248, R249). -/
def Plane.mayClaim (p : Plane) (mode : Nat) : Bool := p.running && p.red.role == .standby && (mode == 1 || !p.red.ownExpired)

/-- The standby in step claims, unless its own lease expired (R248). -/
def State.standbyClaims (s : State) : State :=
  [PlaneId.a, .b].foldl (fun s i =>
    let r := (s.plane i).red
    if (s.plane i).running ∧ r.role = .standby ∧ !r.ownExpired then s.sendClaim i else s) s

/-- GUARD_EXPIRY (R248): a half-cycle after a strict expiry the standby in step sends CLAIM. -/
def execGuardExpiry (s : State) : Host.Outcome State Fault Refusal :=
  .next (match s.fs.au.guardEnd with
    | some t =>
      if t ≤ s.now then (s.updAu fun u => { u with guardEnd := none }).standbyClaims else s
    | none => s)

/-- HEARTBEAT_LOSS (R249): in OVERLAP_BOUNDED mode a standby in step that has seen no RENEWED for 1,536 ticks sends CLAIM. -/
def execHeartbeatLoss (s : State) : Host.Outcome State Fault Refusal :=
  .next ([PlaneId.a, .b].foldl (fun s i =>
    let p := s.plane i
    if p.running ∧ p.red.role = .standby ∧ s.fs.au.mode = 1 ∧ p.red.lastRenewed + 1536 ≤ s.now ∧ !p.red.claiming then
      (s.upd i fun p => p.updRed fun r => { r with heartClaim := true }).sendClaim i
    else s) s)

/-- OVERLAP_MAX (R245): the old holder is revoked and its launches not yet reached are discarded. -/
def execOverlapMax (s : State) : Host.Outcome State Fault Refusal :=
  .next (match s.fs.au.old with
    | some i =>
      if s.fs.au.overlapEnd ≤ s.ttNow then
        ((s.discardFrom i s.now).updAu fun u => { u with old := none }).report 4 0 0
      else s
    | none => s)

/-- DRILL (R260): at D, or the check a half-cycle before it. The RELEASE sent ahead takes effect at D and the standby claims; with
the standby not in step the drill is not made. -/
def execDrill (s : State) : Host.Outcome State Fault Refusal :=
  .next (match s.active? with
    | none => s
    | some i =>
      match (s.plane i).red.drill with
      | none => s
      | some d =>
        if s.now + 2048 < d then s
        else if !s.inStep i then
          (s.updBoth fun p => (p.wrF Reg.RED_DRILL_CTRL 10 8 3).updRed fun r => { r with drill := none }).updAu
            fun u => { u with release := none }
        else if s.now < d then s.sendRelease i d
        else
          s.handOver i)

end Sys2Proof.Machine
end

