-- ==== Sys2Proof/Machine/Network.lean ====
section
/-!
DEFINITION. The frame network (chapter 11): reception, drops, VLAN forwarding and learning, capture, wake filters, pause,
links and the management interface.
-/
namespace Sys2Proof.Machine

/-! ### Frames -/

/-- EtherType of a frame after any VLAN tag, and its VLAN tag (VID) where it carries one. -/
def frameTag (f : List Byte) : Option Nat := if ofBe (slice f 12 2) = 0x8100 then some (ofBe (slice f 14 2) % 4096) else none
def etherType (f : List Byte) : Nat := if (frameTag f).isSome then ofBe (slice f 16 2) else ofBe (slice f 12 2)

/-- Whether a frame's check sequence is right. -/
def fcsOk (f : List Byte) : Bool := decide (4 ≤ f.length) && ofLe (slice f (f.length - 4) 4) == crc32 (f.take (f.length - 4))

/-- A frame without its check sequence. -/
def body (f : List Byte) : List Byte := f.take (f.length - 4)

/-- VID of a tag's VLAN (R311). -/
def tagVid (g : Nat → Word) (t : Nat) : Nat := fld (g (Reg.TENANT_T t)) 11 0

/-- Whether a tag has a VLAN: each active tag has one, T63 has none (R300, R311). -/
def hasVlan (g : Nat → Word) (t : Nat) : Bool := tagActive g t && tagVid g t != 0

/-- The management VID and whether an uplink carries it (R266, R281). -/
def mgmtVid (g : Nat → Word) : Nat := fld (g Reg.SWF_MGMT) 11 0
def uplMgmt (g : Nat → Word) (u : Nat) : Bool := bit (g (Reg.UPL_CFG u)) 3

/-- Whether uplink `u` is a member of a VLAN. -/
def uplMember (g : Nat → Word) (u vid : Nat) : Bool :=
  ((List.range 63).any fun t => hasVlan g t && tagVid g t == vid && uplCarries g u t) || (uplMgmt g u && vid == mgmtVid g)

/-! ### Counts of drops (R270, R271) -/

/-- Causes in the order of the count registers. -/
def cFcs : Nat := 0
def cRunt : Nat := 1
def cOversize : Nat := 2
def cAlign : Nat := 3
def cCtl : Nat := 4
def cFilter : Nat := 5
def cCapdrop : Nat := 6
def cEgdrop : Nat := 7

/-- The key of a plane's count. -/
def countKey (i : PlaneId) (port cause : Nat) : Nat := i.num * 65536 + port * 16 + cause

/-- Count in both planes' sets. -/
def State.countBoth (s : State) (port cause : Nat) : State :=
  s.field fun f => { f with fab := { f.fab with counts := [PlaneId.a, .b].foldl (fun c i =>
    let k := countKey i port cause
    Tab.put (fun _ => 0) c k (satInc 0xFFFF (Tab.get (fun _ => 0) c k))) f.fab.counts } }

/-- A drop: counted once, with the event (R270). -/
def State.dropFrame (s : State) (port cause : Nat) : State :=
  (s.countBoth port cause).updBoth fun p =>
    if port < 128 then p.evt Reg.SWF_EVT 8 else p.evt (Reg.UPL_EVT (port - 128)) 11

/-! ### Pause (R275 to R277) -/

/-- Whether pause is negotiated on a port or uplink. -/
def State.pauseOn (s : State) (port : Nat) : Bool :=
  if port < 128 then (Tab.get (fun _ => {}) s.fs.phy port : PhySt).pauseRx else (s.fs.uplink (port - 128)).pauseOk

/-- Nanoseconds of a number of pause quanta at a link's speed. -/
def State.quantaNs (s : State) (port quanta : Nat) : Nat :=
  if port < 128 then (if (s.fs.port port).speed = 1000 then quanta * 512 else quanta * 5120)
  else if (s.fs.uplink (port - 128)).tenG then quanta * 512 / 10 else quanta * 512

/-- The pause timer of a port or uplink expires: the longest hold is kept and the scheduled queue is served first (R276). -/
def State.pauseEnd (s : State) (port : Nat) : State :=
  if port < 128 then
    s.field fun f => { f with phy := Tab.put (fun _ => {}) f.phy port { (Tab.get (fun _ => {}) f.phy port : PhySt) with pauseUntil := none } }
  else
    let u := port - 128
    let x := s.fs.uplink u
    if x.pauseUntil.isNone then s
    else
      let held := min 0xFFFF (s.now - x.pauseFrom)
      let s := s.field fun f => f.setUplink u { x with pauseUntil := none }
      let s := s.updBoth fun p => if p.rdF (Reg.UPL_PAUSE_MAX u) 15 0 < held then p.wrF (Reg.UPL_PAUSE_MAX u) 15 0 held else p
      if s.fs.inGap s.now then s else s.startHeld u

/-- A PAUSE acted on (R276). -/
def State.pauseIn (s : State) (port quanta : Nat) : State :=
  let until_ := s.ttNow + s.quantaNs port quanta
  if port < 128 then
    if quanta = 0 then s.pauseEnd port
    else s.field fun f => { f with phy := Tab.put (fun _ => {}) f.phy port { (Tab.get (fun _ => {}) f.phy port : PhySt) with pauseUntil := some until_ } }
  else
    let u := port - 128
    let x := s.fs.uplink u
    let s := s.updBoth fun p => p.bump (Reg.UPL_PAUSE_CNT u) 15 0
    if quanta = 0 then s.pauseEnd port
    else
      let s := if x.pauseUntil.isNone then s.updBoth fun p => p.evt (Reg.UPL_EVT u) 9 else s
      s.field fun f => f.setUplink u { x with pauseUntil := some until_, pauseFrom := if x.pauseUntil.isNone then s.now else x.pauseFrom }

/-! ### Forwarding (R266, R267) -/

/-- The forwarding uplink of a VLAN by links and priority (R267): 0 none, otherwise its number + 1. -/
def State.bestUplink (s : State) (vid : Nat) : Nat :=
  let g := s.cfg
  let c := (List.range 4).filter fun u => uplMember g u vid && bit (g (Reg.UPL_CTRL u)) 0 && (s.fs.uplink u).link
  match sortBy (fun u => fld (g (Reg.UPL_CFG u)) 7 4) c with
  | u :: _ => u + 1
  | [] => 0

/-- The VIDs in use. -/
def State.vids (s : State) : List Nat :=
  mgmtVid s.cfg :: ((List.range 63).filter (hasVlan s.cfg)).map (tagVid s.cfg)

/-- The forwarding uplinks move at a boundary; entries learned on an uplink that no longer forwards a VLAN are removed. -/
def State.moveForwarding (s : State) : State :=
  s.vids.foldl (fun s v =>
    let old := Tab.get (fun _ => 0) s.fs.fab.fwd v
    let new := s.bestUplink v
    if old = new then s
    else s.field fun f => { f with fab := { f.fab with fwd := Tab.put (fun _ => 0) f.fab.fwd v new,
                                                       fdb := f.fab.fdb.filter fun e => !(e.vid == v && old != 0 && e.port == 127 + old) } }) s

/-- The VLAN in which a received frame is placed, or none where ingress refuses it (R266). -/
def State.ingress (s : State) (port : Nat) (f : List Byte) : Option Nat :=
  let g := s.cfg
  let own := tagVid g (portTag g port)
  match frameTag f with
  | none => if port < 128 ∧ hasVlan g (portTag g port) then some own else none
  | some v =>
    if port < 128 then (if hasVlan g (portTag g port) ∧ (v = 0 ∨ v = own) then some own else none)
    else if uplMember g (port - 128) v then some v else none

/-- Whether a port or uplink belongs to a VLAN for egress and can forward it. -/
def State.egressOk (s : State) (vid out : Nat) : Bool :=
  let g := s.cfg
  if out < 128 then hasVlan g (portTag g out) && tagVid g (portTag g out) == vid && (s.fs.port out).link && bit (g (Reg.PORTG_CFG (out / 8) (out % 8))) 0
  else Tab.get (fun _ => 0) s.fs.fab.fwd vid == out - 127 && (s.fs.uplink (out - 128)).link

/-- The priority bits of a frame's VLAN tag, with its DEI: those of PORT_CFG_n.PCP for an untagged one (R266). -/
def State.tagPrio (s : State) (inPort : Nat) (f : List Byte) : Nat :=
  match frameTag f with
  | some _ => ofBe (slice f 14 2) / 4096
  | none => if inPort < 128 then 2 * fld (s.cfg (Reg.SWF_PORT_CFG inPort)) 6 4 else 0

/-- Where a frame without VLAN tag holds a PTP event message: over IEEE 802.3, or over UDP port 319 (R274). -/
def ptpEventAt (b : List Byte) : Option Nat :=
  let udp := 14 + 4 * (ofBe (slice b 14 1) % 16)
  let at_ : Option Nat := if ofBe (slice b 12 2) = 0x88F7 then some 14
    else if ofBe (slice b 12 2) = 0x0800 ∧ ofBe (slice b 23 1) = 17 ∧ ofBe (slice b (udp + 2) 2) = 319 then some (udp + 8) else none
  at_.filter fun o => decide (ofBe (slice b o 1) % 16 < 4)

/-- A frame without its VLAN tag and check sequence. -/
def plain (f : List Byte) : List Byte := if (frameTag f).isSome then (body f).take 12 ++ (body f).drop 16 else body f

/-- A transparent clock adds a residence time, in ns, to the correctionField of a PTP event message, and keeps a UDP checksum right (R274). -/
def addResidence (b : List Byte) (ns : Nat) : List Byte :=
  match ptpEventAt b with
  | none => b
  | some o =>
    let old := slice b (o + 8) 8
    let new := beBytes 8 ((ofBe old + ns * 65536) % 2 ^ 64)
    let b := putBytes b (o + 8) new
    let sum := ofBe (slice b (o - 2) 2)
    if o = 14 ∨ sum = 0 then b
    else
      let r := 65535 - onesSum ((65535 - sum) :: (beWords old).map (65535 - ·) ++ beWords new)
      putBytes b (o - 2) (beBytes 2 (if r = 0 then 65535 else r))

/-- A frame as it leaves by an egress: tagged on uplinks and on ports that send tagged, otherwise untagged; its check sequence is
formed again (R266). `ns` is the residence time that a transparent clock adds. -/
def State.egressForm (s : State) (inPort vid out ns : Nat) (f : List Byte) : List Byte :=
  let g := s.cfg
  let pcp := s.tagPrio inPort f
  let plain := if bit (g Reg.SWF_CFG) 0 then addResidence (plain f) ns else plain f
  let tagged := out ≥ 128 || bit (g (Reg.SWF_PORT_CFG out)) 3
  let b := if tagged then plain.take 12 ++ beBytes 2 0x8100 ++ beBytes 2 (pcp * 4096 + vid) ++ plain.drop 12 else plain
  b ++ leBytes 4 (crc32 b)

/-- Learn a source address (R267). -/
def State.learn (s : State) (mac vid port : Nat) : State :=
  let tt := s.ttNow
  let fdb := s.fs.fab.fdb
  let known := fdb.any fun e => e.mac == mac && e.vid == vid
  if ofNatBit mac then s
  else if !known && fdb.length ≥ 16384 then s
  else
    let t := s.field fun f => { f with fab := { f.fab with
      fdb := { mac := mac, vid := vid, port := port, used := tt } :: f.fab.fdb.filter fun e => !(e.mac == mac && e.vid == vid) } }
    if !known && fdb.length + 1 = 16384 then t.updBoth fun p => p.evt Reg.SWF_EVT 10 else t
where
  /-- The group bit of a MAC address. -/
  ofNatBit (mac : Nat) : Bool := mac / 2 ^ 40 % 2 == 1

/-! ### Egress queues and PTP timestamps (R268, R274) -/

/-- The field side's PTP clock, in ns: from its time at tick 0 on (R68, R84). -/
def State.ptpNow (s : State) : Nat := ((s.plane s.lead).mpe.hist.head?.elim 0 TickRec.ptp) + s.now % 4096 * s.fs.per / 65536

/-- A PTP event message is timestamped on receipt or transmission, `ns` into the tick, with a resolution of 8 ns (R274). -/
def State.stampPtp (s : State) (port : Nat) (rx : Bool) (ns : Nat) : State :=
  s.field fun f => { f with fab := { f.fab with stamps := f.fab.stamps ++ [(port, rx, (s.ptpNow + ns) / 8 * 8)] } }

/-- A received PTP event message is timestamped; where in its tick it came is a free value. (DESIGN CHOICE, safe: assumption 57.) -/
def State.stampRx (s : State) (port : Nat) (f : List Byte) : State :=
  if (ptpEventAt (plain f)).isNone then s
  else
    let (n, s) := s.draw
    s.stampPtp port true (Config.free n % s.fs.tickNs)

/-- Whether a switched frame that starts on an egress ends before the next launch there (R268): one in the field side's queue, or booked for a later tick. -/
def State.gateOpen (s : State) (out end_ : Nat) : Bool :=
  let path := if out < 128 then out else 0x200 + out - 128
  let clear (tick : Nat) : Bool := decide (end_ ≤ s.ttNow + (tick - s.now) * s.fs.tickNs)
  (s.fs.lq.all fun l => l.path != path || l.released || decide (l.tick < s.now) || clear l.tick) &&
    (s.plane s.lead).weir.books.all fun b => b.path != path || decide (b.tick ≤ s.now) || clear b.tick

/-- Whether pause holds an egress (R276). -/
def FieldSide.pausedAt (f : FieldSide) (out : Nat) : Bool :=
  if out < 128 then (Tab.get (fun _ => {}) f.phy out : PhySt).pauseUntil.isSome else (f.uplink (out - 128)).paused

/-- The frame that an egress sends next: the first of the highest priority. -/
def nextSwitched : List Switched → Option Switched
  | [] => none
  | x :: r => match nextSwitched r with
    | some y => if x.prio < y.prio then some y else some x
    | none => some x

/-- The switched frames of an egress that start within the tick, in strict priority (R268): each once the wire is free, no pause holds it and its end
leaves the next launch its tick. The time from reception to the queue is a free value of the residence time. (DESIGN CHOICE, safe: assumption 57.) -/
def State.serve (out : Nat) : Nat → State → State
  | 0, s => s
  | k + 1, s =>
    let q := Tab.get (fun _ => []) s.fs.fab.queues out
    match nextSwitched q with
    | none => s
    | some x =>
      let drop (s : State) : State := s.field fun f => { f with fab := { f.fab with queues := Tab.put (fun _ => []) f.fab.queues out (q.erase x) } }
      let start := s.wireAt out
      let ptp := (ptpEventAt (plain x.frame)).isSome
      let form (s : State) (ns : Nat) : List Byte := s.egressForm x.source x.vid out ns x.frame
      if !s.egressOk x.vid out then (drop s).serve out k
      else if s.ttNow + s.fs.tickNs ≤ start ∨ s.fs.pausedAt out ∨ !s.gateOpen out (start + s.fs.frameNs out (form s 0).length) then s
      else if !ptp then ((drop s).occupy out (form s 0)).serve out k
      else
        let (n, s) := s.draw
        (((drop s).occupy out (form s (start - x.at_ + Config.free n))).stampPtp out false (start - s.ttNow)).serve out k

/-- Every egress goes on with its queue as a tick begins. -/
def State.serveAll (s : State) : State := s.fs.fab.queues.foldl (fun s e => s.serve e.1 128) s

/-- Forward a frame within its VLAN: to the queue of the learned egress, or flooded; an egress whose share is full drops it (R267, R268). (DEDUCED, unsafe: assumption 36.) -/
def State.forward (s : State) (port vid : Nat) (f : List Byte) (full : List Nat) : State :=
  let dst := ofBe (slice f 0 6)
  let found := s.fs.fab.fdb.find? fun e => e.mac == dst && e.vid == vid
  let tt := s.ttNow
  let outs := match found with
    | some e => if e.port = port then [] else [e.port]
    | none => (List.range 132).filter fun o => o != port
  let s := match found with
    | some e => s.field fun g => { g with fab := { g.fab with fdb := g.fab.fdb.map fun x => if x = e then { x with used := tt } else x } }
    | none => s
  (outs.filter (s.egressOk vid)).foldl (fun s o =>
    if full.contains o then
      (s.countBoth o cEgdrop).updBoth fun p => p.evt Reg.SWF_EVT 12
    else
      let x : Switched := { prio := s.tagPrio port f / 2, vid := vid, source := port, at_ := tt, frame := f }
      (s.field fun g => { g with fab := { g.fab with
        queues := Tab.put (fun _ => []) g.fab.queues o (Tab.get (fun _ => []) g.fab.queues o ++ [x]) } }).serve o 128) s

/-! ### Capture and wake (R272, R273, R278) -/

/-- Points that a frame on a port feeds: kind 1 of the port whose EtherType it carries. -/
def feeds (port : Nat) (f : List Byte) (e : PmEntry) : Bool := e.kind == 1 && e.src == port && e.dst == etherType f

/-- Refresh the points that a captured frame feeds and whose field it holds (R126). -/
def Plane.framePoints (p : Plane) (port : Nat) (f : List Byte) : Plane :=
  let b := body f
  p.forPoints (fun e => feeds port f e && decide (e.sig % 2048 + 2 ^ (e.sig / 2048 % 4) ≤ b.length)) fun p i =>
    let e := p.pm i
    let w := 2 ^ (e.sig / 2048 % 4)
    let d := slice b (e.sig % 2048) w
    p.refresh i (e.rawField (8 * w) (if e.big then ofBe d else ofLe d))

/-- The payloads of the INPUT blocks that carry a captured frame, 36 bytes each (R272). -/
def captureBlocks (port : Nat) (b : List Byte) : List (List Byte) :=
  (List.range ((b.length + 35) / 36)).map fun k =>
    [if k = 0 then 0x30 else 0x32, BitVec.ofNat 8 port] ++ leBytes 2 (if k = 0 then b.length else 36 * k) ++ slice b (36 * k) 36

/-- Capture a frame, at most 4 per port and half-cycle. -/
def State.capture (s : State) (port : Nat) (f : List Byte) : State :=
  let g := s.cfg
  let p := s.plane s.lead
  if port ≥ 128 ∨ !(p.pointIdx.any fun i => feeds port f (pmEntry g i)) then s
  else
    let x := s.fs.port port
    if x.capt ≥ 4 then (s.countBoth port cCapdrop).updBoth fun p => p.evt Reg.SWF_EVT 11
    else
      let s := (captureBlocks port (body f)).foldl (fun s b => s.sendInput s.now (portTag g port) port b) s
      (s.field fun f => f.setPort port { x with capt := x.capt + 1 }).updBoth fun p => p.framePoints port f

/-- The selected bytes of a wake filter, in frame order. -/
def wakeBytes (g : Nat → Word) (k : Nat) : List Nat :=
  (List.range 128).filter fun i =>
    let m := if i < 32 then g (Reg.WAKE_MASK_0 k) else if i < 64 then g (Reg.WAKE_MASK_1 k)
      else if i < 96 then g (Reg.WAKE_MASK_2 k) else g (Reg.WAKE_MASK_3 k)
    bit m (i % 32)

/-- The ports a wake filter names; with a tag other than T0 only those that carry it (R280, R315). -/
def wakePorts (g : Nat → Word) (k : Nat) : List Nat :=
  let tag := fld (g (Reg.WAKE_CFG k)) 13 8
  (List.range 128).filter fun n =>
    let w := if n < 32 then g (Reg.WAKE_PORTS_0 k) else if n < 64 then g (Reg.WAKE_PORTS_1 k)
      else if n < 96 then g (Reg.WAKE_PORTS_2 k) else g (Reg.WAKE_PORTS_3 k)
    bit w (n % 32) && (tag == 0 || portTag g n == tag)

/-- Whether a wake filter matches a frame (R278). -/
def wakeMatches (g : Nat → Word) (k port : Nat) (f : List Byte) : Bool :=
  let cfg := g (Reg.WAKE_CFG k)
  let sel := wakeBytes g k
  bit cfg 0 && (if port < 128 then bit cfg 5 else bit cfg (1 + (port - 128))) && sel != [] &&
    decide (sel.getLastD 0 < f.length) && crc32 (sel.map fun i => f.getD i 0) == (g (Reg.WAKE_CHECK k)).toNat

/-- A frame meets the wake filters; their launches wait for the next boundary (R279). -/
def State.wake (s : State) (port : Nat) (f : List Byte) : State :=
  let g := s.cfg
  let hits := (List.range 32).filter fun k => wakeMatches g k port f
  s.field fun x => { x with waking := x.waking ++ hits.map fun k => (k, ((wakePorts g k).map fun n => 2 ^ n).sum, s.now) }

/-! ### Links (R263 to R265) -/

/-- A path comes up at a speed: a higher one than that in force is in force at once, a lower one acts as a disabling at the next boundary (R265). -/
def State.pathSpeed (s : State) (path : Nat) : State :=
  s.field fun f =>
    let slower (f : FieldSide) : FieldSide := { f with fab := { f.fab with slower := f.fab.slower ++ [path] } }
    if path < 0x80 then
      let x := f.port path
      if x.speed < x.rate then slower f else f.setPort path { x with rate := x.speed }
    else
      let x := f.uplink (path - 0x200)
      if x.rate && !x.tenG then slower f else f.setUplink (path - 0x200) { x with rate := x.tenG }

/-- The switch fabric's fault keeps every port and uplink down (R435). -/
def State.fabricFault (s : State) : Bool := bit ((s.plane s.lead).rd Reg.FAULT_FIELD_FLT) 7

/-- Whether an uplink's MODE gives 10GBASE-R: 0 and 3 as its module's codes say, and with no supported module as it was (R264, R283). (DEDUCED, unsafe: assumption 36.) -/
def uplinkTenG (f : FieldSide) (g : Nat → Word) (u : Nat) : Bool :=
  match fld (g (Reg.UPL_CFG u)) 1 0, (f.uplink u).module with
  | 1, _ => true
  | 2, _ => false
  | _, some .tenG => true
  | _, some .oneG => false
  | _, _ => (f.uplink u).rate

/-- An uplink loses its link (R265). -/
def State.uplinkDown (s : State) (u : Nat) : State :=
  let s := s.field fun f => f.setUplink u { f.uplink u with link := false, pauseOk := false, pauseUntil := none }
  s.updBoth fun p => p.evt (Reg.UPL_EVT u) 8

/-- A port's PHY finds a partner: link where a full-duplex speed that SPEED allows is common (R263, R275). -/
def State.portUp (s : State) (n : Nat) (g1000 pause : Bool) : State :=
  let cfg := s.cfg (Reg.SWF_PORT_CFG n)
  let x := s.fs.port n
  let speed := if g1000 then 1000 else 100
  let allowed := match fld cfg 1 0 with
    | 1 => !g1000
    | 2 => g1000
    | _ => true
  let phy : PhySt := Tab.get (fun _ => {}) s.fs.phy n
  if !allowed then
    let s := if x.link then s.portDown n else s
    s.field fun f => { f with phy := Tab.put (fun _ => {}) f.phy n { phy with speedRefused := true, half := false, pauseRx := false, pauseUntil := none } }
  else
    let s := s.field fun f => { (f.setPort n { x with link := true, speed := speed }) with
      phy := Tab.put (fun _ => {}) f.phy n { pauseRx := bit cfg 2 && pause } }
    (s.pathSpeed n).updBoth fun p => p.evt Reg.SWF_EVT 9

/-! ### Meanings -/

/-- FRAME_RECEIVE (R266 to R273, R276, R278): checked under R270 in its order, stamped, captured, matched and forwarded. `full` are
the egresses whose buffer share is full. -/
def execFrameReceive (port : Fin 132) (frame : List Byte) (aligned : Bool) (full : List (Fin 132)) (s : State) :
    Host.Outcome State Fault Refusal :=
  let n := port.val
  let et := etherType frame
  let dst := ofBe (slice frame 0 6)
  .next (if frame.length < 64 then s.dropFrame n cRunt
  else if frame.length > 1522 then s.dropFrame n cOversize
  else if !aligned && n < 128 && (s.fs.port n).speed == 100 then s.dropFrame n cAlign
  else if !fcsOk frame then s.dropFrame n cFcs
  else if et = 0x8808 then
    if s.pauseOn n && ofBe (slice frame (if (frameTag frame).isSome then 18 else 14) 2) == 1 then
      s.pauseIn n (ofBe (slice frame (if (frameTag frame).isSome then 20 else 16) 2))
    else s.dropFrame n cCtl
  else
    let s := s.stampRx n frame
    -- peer delay messages are consumed (R267, R274)
    if dst / 16 = 0x0180C200000 ∧ et = 0x88F7 ∧ [2, 3, 10].contains (ofBe (slice (plain frame) 14 1) % 16) then s
    else
    match s.ingress n frame with
    | none => s.dropFrame n cFilter
    | some vid =>
      if dst / 16 = 0x0180C200000 then s.dropFrame n cFilter
      else
        let s := (s.capture n frame).wake n frame
        -- a member uplink that does not forward the VLAN discards its frames uncounted (R267)
        if n ≥ 128 ∧ Tab.get (fun _ => 0) s.fs.fab.fwd vid ≠ n - 127 then s else
        (s.learn (ofBe (slice frame 6 6)) vid n).forward n vid frame (full.map fun x => x.val))

/-- PORT_LINK_CHANGE (R263, R265). -/
def execPortLinkChange (port : Fin 128) (link : PortLink) (s : State) : Host.Outcome State Fault Refusal :=
  let phy : PhySt := Tab.get (fun _ => {}) s.fs.phy port
  let setPhy (s : State) (x : PhySt) : State := s.field fun f => { f with phy := Tab.put (fun _ => {}) f.phy port x }
  let down (s : State) : State := if (s.fs.port port).link then s.portDown port else s
  .next (match link with
    | .down => setPhy (down s) {}
    | .halfOnly => setPhy (down s) { phy with half := true, pauseRx := false }
    | .speedRefused => setPhy (down s) { phy with speedRefused := true, pauseRx := false }
    -- the PHY of a sleeping port is off (R164), and so is every link while the switch fabric is faulted (R435)
    | .up g1000 pause => if (s.fs.port port).st = .sleep ∨ s.fabricFault then s else s.portUp port g1000 pause)

/-- UPLINK_LINK_CHANGE (R264, R265, R267, R275): link comes with a supported module, the laser on and the mode that MODE gives. -/
def execUplinkLinkChange (u : Fin 4) (link tenG partnerPause : Bool) (s : State) : Host.Outcome State Fault Refusal :=
  let x := s.fs.uplink u
  let rx := bit (s.cfg (Reg.UPL_CFG u)) 2
  let able := (x.module == some .tenG || x.module == some .oneG) && bit (s.cfg (Reg.UPL_CTRL u)) 0 && tenG == uplinkTenG s.fs s.cfg u && !s.fabricFault
  .next (if link && !able then s
  else if link then
    let s := s.field fun f => f.setUplink u { x with link := true, tenG := tenG, pauseOk := rx && (tenG || partnerPause) }
    (s.pathSpeed (0x200 + u)).updBoth fun p => if x.link then p else p.evt (Reg.UPL_EVT u) 8
  else if x.link then s.uplinkDown u
  else s)

/-- MODULE_CHANGE (R264, R448): what the cage holds from now on; a module whose supply is cut counts as none. A change of module takes the link. -/
def execModuleChange (u : Fin 4) (module : Option Sfp) (s : State) : Host.Outcome State Fault Refusal :=
  let s := if (s.fs.uplink u).link ∧ (s.fs.uplink u).module ≠ module then s.uplinkDown u else s
  let s := s.field fun f => f.setUplink u { f.uplink u with module := module }
  .next (s.updBoth fun p => p.evt (Reg.UPL_EVT u) 12)

/-- FDB_AGE_EXPIRY (R267): an entry unused for AGE seconds is removed. -/
def execFdbAgeExpiry (mac : BitVec 48) (vid : BitVec 12) (s : State) : Host.Outcome State Fault Refusal :=
  let age := max 10 (fld (s.cfg Reg.SWF_CFG) 31 16)
  let tt := s.ttNow
  .next (s.field fun f =>
    let fdb := f.fab.fdb.filter fun e =>
      !(e.mac == mac.toNat && e.vid == vid.toNat && decide (e.used + age * 1000000000 ≤ tt))
    { f with fab := { f.fab with fdb := fdb } })

/-- PAUSE_RECEIVE (R276): acted on where pause is negotiated, otherwise dropped as a control frame (R270). -/
def execPauseReceive (port : Fin 132) (quanta : BitVec 16) (s : State) : Host.Outcome State Fault Refusal :=
  .next (if s.pauseOn port then s.pauseIn port quanta.toNat else s.dropFrame port cCtl)

/-- PAUSE_EXPIRY (R276). -/
def execPauseExpiry (port : Fin 132) (s : State) : Host.Outcome State Fault Refusal :=
  let due := if port.val < 128 then (Tab.get (fun _ => {}) s.fs.phy port : PhySt).pauseUntil
    else (s.fs.uplink (port - 128)).pauseUntil
  .next (match due with
    | some t => if t ≤ s.ttNow then s.pauseEnd port else s
    | none => s)

/-- MGMT_FRAME (R281, R454): a plane answers ARP and ICMP echo for its address and accepts Moarno connections; the service port
drops every other frame. -/
def execMgmtFrame (p : PlaneId) (kind : MgmtKind) (service : Bool) (s : State) : Host.Outcome State Fault Refusal :=
  let x := s.plane p
  let addr : Nat := if service then 0xA9FE4700 + 10 + p.num
    else (x.cfg (if p = .a then Reg.SWF_IP_A else Reg.SWF_IP_B)).toNat
  let on := x.running && addr != 0 && (service || bit (x.cfg Reg.SWF_MGMT) 16)
  let ours := match kind with
    | .arp ip => ip.toNat == addr
    | .icmp ip => ip.toNat == addr
    | .tcp ip port => ip.toNat == addr && port.toNat == fld (x.rd Reg.ACCESS_MOARNO) 15 0
    | .other => false
  .next (s.field fun f => { f with fab := { f.fab with mgmtSent := if on && ours then some (p, kind) else none } })

end Sys2Proof.Machine
end

