-- ==== Sys2Proof/Machine/Metering.lean ====
section
/-!
DEFINITION. Metering, tenant accounts and pulse outputs (chapter 7).
-/
namespace Sys2Proof.Machine

/-! ### Registers (R171, R172, R178) -/

/-- Energy register `r` in 2^-32 of its unit. -/
def MeterSt.e (m : MeterSt) (r : Nat) : Int := Tab.get (fun _ => 0) m.energy r

/-- Add to an energy register. -/
def MeterSt.add (m : MeterSt) (r : Nat) (v : Int) : MeterSt := { m with energy := Tab.put (fun _ => 0) m.energy r (m.e r + v) }

/-- Whole-unit count of a stored register. -/
def MeterSt.whole1 (m : MeterSt) (r : Nat) : Int := m.e r / 2 ^ 32

/-- Whole-unit count of an energy register: the sums of group 4 are formed from the registers they sum (R172, R181). -/
def MeterSt.count (m : MeterSt) (r : Nat) : Int :=
  let auxSum (c : Nat) : Int := ((List.range 12).map fun n => m.whole1 (0x1000 + 16 * n + c)).sum
  if r = 0x4000 then m.whole1 0x0030 + auxSum 0
  else if r = 0x4001 then m.whole1 0x0031 + auxSum 1
  else if r = 0x4002 then m.whole1 0x0030
  else if r = 0x4003 then m.whole1 0x0031
  else if r = 0x4004 then ((List.range 128).map fun n => m.whole1 (0x2000 + 16 * n)).sum
  else if r = 0x4005 then auxSum 0
  else if r = 0x4006 then auxSum 1
  else m.whole1 r

/-- The value of a metering register. -/
def Plane.meterReg (p : Plane) (r : Nat) : Int :=
  if meterRegEnergy r then p.meter.count r
  else if r / 4096 = 3 ∧ r % 16 = 6 then Tab.get (fun _ => 0) p.acct.carry (r / 16 % 256)
  else if r = 0x4009 then p.rdF Reg.MPE_FREQ 16 0
  else if r = 0x400A then p.acct.intv
  else Tab.get (fun _ => 0) p.meter.vals r

/-! ### Channels and faults (R179) -/

/-- Whether a channel, by bits [15:4] of its register numbers, is faulted. -/
def MeterSt.bad (m : MeterSt) (ch : Nat) : Bool := m.faults.contains ch || m.calFault.contains ch

/-- The channel of a metering register. -/
def regChannel (r : Nat) : Nat := if r / 4096 = 6 then (if r / 512 % 8 < 6 then r / 512 % 8 % 3 else 4) else r / 16

/-- Refresh the kind 7 points of the registers that satisfy `q`, unless their channel is faulted (R126, R129, R173). -/
def Plane.refreshMeter (p : Plane) (q : Nat → Bool) : Plane :=
  p.forPoints (fun e => e.kind == 7 && q e.src && !p.meter.bad (regChannel e.src)) fun p i => p.refresh i (p.meterReg (p.pm i).src)

/-- A channel changes its fault state: the event, a record, and its points lose their station. `cause` is the record's EVENT. -/
def Plane.channelFault (p : Plane) (ch cause : Nat) (dev : Int) : Plane :=
  let p := (p.evt Reg.METER_EVT 8).stage 0x28 0 2 (leBytes 2 ch ++ [BitVec.ofNat 8 cause, 0] ++ leBytes 4 (toTwos 32 dev))
  if cause = 0 then p else p.forPoints (fun e => e.kind == 7 && regChannel e.src == ch) Plane.pointBad

/-- The metering front end is faulted: every channel is (R435). -/
def Plane.frontFault (p : Plane) : Bool := bit (p.rd Reg.FAULT_FIELD_FLT) 8

/-- Whether an AC phase or the neutral (4) has a signal faulted. -/
def MeterSt.signalFault (m : MeterSt) (ch : Nat) : Bool :=
  if ch = 4 then m.signals.testBit 6 else decide (ch < 3) && (m.signals.testBit ch || m.signals.testBit (ch + 3))

/-- CH_FAULT.AC (R194): a signal's own fault; the signals of a channel that is faulted otherwise all read 1. -/
def MeterSt.acFaults (m : MeterSt) : Nat :=
  let other (ch : Nat) : Bool := m.bad ch && (!m.signalFault ch || m.calFault.contains ch)
  ((List.range 3).map fun k => 2 ^ k * (m.signals.testBit k || other k).toNat + 2 ^ (k + 3) * (m.signals.testBit (k + 3) || other k).toNat).sum +
    2 ^ 6 * (m.signals.testBit 6 || other 4).toNat

/-- Set or clear a channel's modulator or measurement fault. -/
def Plane.setFault (p : Plane) (ch : Nat) (on : Bool) : Plane :=
  let was := p.meter.bad ch
  let p := { p with meter := { p.meter with faults := if on then insertNat ch p.meter.faults else p.meter.faults.filter fun c => c != ch } }
  if was = p.meter.bad ch then p else p.channelFault ch (if on then (if ch / 256 = 2 then 2 else 1) else 0) 0

/-! ### Samples (R168 to R170, R175, R176) -/

/-- Integer square root. -/
def isqrtGo : Nat → Nat → Nat → Nat
  | 0, _, r => r
  | k + 1, n, r => if (r + 2 ^ k) * (r + 2 ^ k) ≤ n then isqrtGo k n (r + 2 ^ k) else isqrtGo k n r
def isqrt (n : Nat) : Nat := isqrtGo 96 n 0

/-- Add a sample to running sums: voltage, voltage a quarter-cycle earlier, current, P(c). -/
def ChanAcc.push (c : ChanAcc) (v vq i : Int) (per : Nat) : ChanAcc :=
  { p := c.p + v * i * per, q := c.q + vq * i * per, v2 := c.v2 + (v * v).toNat, i2 := c.i2 + (i * i).toNat,
    n := c.n + 1, dt := c.dt + per }

/-- Running sums of channel `k`. -/
def accOf (l : List ChanAcc) (k : Nat) : ChanAcc := l.getD k {}

/-- Replace channel `k`'s running sums; the list grows as needed. -/
def accPut (l : List ChanAcc) (k : Nat) (c : ChanAcc) : List ChanAcc := (l ++ List.replicate (k + 1 - l.length) ({} : ChanAcc)).set k c

/-- Push a sample into a channel's half-cycle and cycle sums, unless the channel is faulted. -/
def Plane.pushChan (p : Plane) (k ch : Nat) (v vq i : Int) : Plane :=
  if p.meter.bad ch then p
  else { p with meter := { p.meter with half := accPut p.meter.half k ((accOf p.meter.half k).push v vq i p.mpe.per),
                                        cyc := accPut p.meter.cyc k ((accOf p.meter.cyc k).push v vq i p.mpe.per) } }

/-- Sample `i` of 24 bits from offset `o`. -/
def sample24 (b : List Byte) (o i : Nat) : Int := sext 24 (ofLe (slice b (o + 3 * i) 3))

/-- The AC block (R169). -/
def Plane.acBlock (p : Plane) (b : List Byte) : Plane :=
  let v (k : Nat) : Int := sample24 b 1 k
  let faults := ofLe (slice b 23 1)
  -- fault bits: V1 to V3, I1 to I3, IN, and the internal channel
  let p := if faults % 128 = p.meter.signals then p else
    let p := { p with meter := { p.meter with signals := faults % 128 } }
    [0, 1, 2, 4].foldl (fun p k => p.setFault k (p.meter.signalFault k || p.frontFault)) p
  let inner := faults / 128 == 1 || p.frontFault
  let p := if inner = p.meter.faults.contains 0x400 then p else p.setFault 0x400 inner
  let p := if ofLe (slice b 22 1) % 128 = 0 then p else p.evt Reg.METER_EVT 10
  let p := (List.range 3).foldl (fun p k => p.pushChan k k (v k) ((p.meter.vHist.getD k []).getD 1023 0) (v (k + 3))) p
  let p := p.pushChan 3 4 0 0 (v 6)
  let p := { p with meter := { p.meter with
    vHist := (List.range 3).map fun k => (v k :: p.meter.vHist.getD k []).take 1025 } }
  if p.meter.bad 0x400 then p
  else { p with meter := { p.meter with intAcc := p.meter.intAcc + ofLe (slice b 24 4) * p.mpe.per } }

/-- An auxiliary block from channel `first` (R169, R170). -/
def Plane.auxBlock (p : Plane) (first : Nat) (b : List Byte) : Plane :=
  let p := if ofLe (slice b 19 1) % 64 = 0 then p else p.evt Reg.METER_EVT 10
  (List.range 6).foldl (fun p j =>
    let n := first + j
    let cfg := p.cfg (Reg.METER_AUX_CFG n)
    let fault := ofLe (slice b 20 1) / 2 ^ j % 2 == 1 || p.frontFault
    let p := if fault = p.meter.faults.contains (0x100 + n) then p else p.setFault (0x100 + n) fault
    if !bit cfg 0 then p
    else
      let s := sample24 b 1 j
      let ph := fld cfg 2 1
      -- the voltage of this tick is the newest of the phase's history
      let hist := p.meter.vHist.getD ph []
      p.pushChan (4 + n) (0x100 + n) (hist.getD 0 0) (hist.getD 1024 0) (if bit cfg 3 then -s else s)) p

/-- The port block of group `g` in a plane (R169, R176, R177): each port's V, I and P take the sample, and products above the no-load threshold
accumulate. -/
def Plane.portBlock (p : Plane) (b : List Byte) : Plane :=
  let g := ofLe (slice b 1 1) % 16
  (List.range 8).foldl (fun p i =>
    let n := 8 * g + i
    let v := ofLe (slice b (2 + 4 * i) 2)
    let a := ofLe (slice b (4 + 4 * i) 2)
    let fault := ofLe (slice b 34 1) / 2 ^ i % 2 == 1 || p.frontFault
    let p := if fault = p.meter.faults.contains (0x200 + n) then p else p.setFault (0x200 + n) fault
    let mw := v * a / 20000
    let vals := Tab.put (fun _ => 0) (Tab.put (fun _ => 0) (Tab.put (fun _ => 0) p.meter.vals (0x2008 + 16 * n) (v * 1000 : Nat))
      (0x2009 + 16 * n) (a * 5 : Nat)) (0x200A + 16 * n) (mw : Nat)
    let p := { p with meter := { p.meter with vals := vals } }.refreshMeter fun r => r / 16 == 0x200 + n && r % 16 != 0
    if p.meter.bad (0x200 + n) ∨ v * a < 20000 * fld (p.cfg (Reg.METER_PORT_NL n)) 15 0 then p
    else
      let sum := Tab.get (fun _ => 0) p.meter.portAcc n + v * a * p.mpe.per
      { p with meter := { p.meter with portAcc := Tab.put (fun _ => 0) p.meter.portAcc n sum } }) p

/-- The field side's own readings from a port block: PORT_n.VI, the samples of PORT_n.POWER, and the output that the measured state goes by (R152, R176). -/
def State.portReadings (s : State) (b : List Byte) : State :=
  let g := ofLe (slice b 1 1) % 16
  (List.range 8).foldl (fun s i =>
    let v := ofLe (slice b (2 + 4 * i) 2)
    let a := ofLe (slice b (4 + 4 * i) 2)
    let x := s.fs.port (8 * g + i)
    s.portTo (8 * g + i) { x with mv := v, ma := a * 5 / 100, pSum := x.pSum + v * a, pCnt := x.pCnt + 1, volt := decide (44000 ≤ v) }) s

/-- PORT_n.POWER at a half-cycle boundary (R165): the mean of the samples of the half-cycle; with none, as it was while there is output. -/
def PortSt.endHalf (x : PortSt) : PortSt :=
  { x with power := if x.pCnt = 0 then (if x.volt then x.power else 0) else x.pSum / x.pCnt / 20000, pSum := 0, pCnt := 0, capt := 0 }

/-! ### Energy at a half-cycle boundary (R175 to R178) -/

/-- Route an energy sample by its signs: active, reactive and apparent in 2^-32 of their units (R175). -/
def MeterSt.route (m : MeterSt) (base : Nat) (pw q s : Int) : MeterSt :=
  let m := if pw ≥ 0 then m.add base pw else m.add (base + 1) (-pw)
  let quad := if pw ≥ 0 then (if q ≥ 0 then 2 else 5) else if q ≥ 0 then 3 else 4
  let m := m.add (base + quad) (if q ≥ 0 then q else -q)
  m.add (base + (if pw ≥ 0 then 6 else 7)) s

/-- Magnitude of an integer. -/
def absI (v : Int) : Int := if v < 0 then -v else v

/-- AC sums to 2^-32 µWh: samples in 64 µV and 4 µA, time in 1/16 ns × ticks. -/
def acEnergy (v : Int) : Int := Int.tdiv (v * 4294967296) 921600000000000000000

/-- Auxiliary sums with their full scale in 0.1 A. -/
def auxEnergy (fs : Nat) (v : Int) : Int := Int.tdiv (v * fs) 72000000000000

/-- Apparent sum of a channel: V_RMS × I_RMS × Σ Δt. -/
def ChanAcc.apparent (c : ChanAcc) : Int := if c.n = 0 then 0 else (isqrt (c.v2 * c.i2) * c.dt / c.n : Nat)

/-- The half-cycle's energy samples (R175, R177). -/
def Plane.accumulate (p : Plane) : Plane :=
  let h := p.meter.half
  let nl (k : Nat) : Nat := fld (p.cfg (Reg.METER_AC_NL k)) 15 0
  let quiet (pw : Int) (dt thr : Nat) : Bool := decide (absI pw * 256 < (thr * dt * 1000000000 : Nat))
  let phase (m : MeterSt) (k : Nat) : MeterSt :=
    let c := accOf h k
    if c.n = 0 || quiet c.p c.dt (nl k) then m else m.route (16 * k) (acEnergy c.p) (acEnergy c.q) (acEnergy c.apparent)
  let m := (List.range 3).foldl phase p.meter
  let tot (f : ChanAcc → Int) : Int := ((List.range 3).map fun k => f (accOf h k)).sum
  let dt := ((List.range 3).map fun k => (accOf h k).dt).foldl max 0
  let m := if dt = 0 || quiet (tot ChanAcc.p) dt (nl 3) then m
    else m.route 0x30 (acEnergy (tot ChanAcc.p)) (acEnergy (tot ChanAcc.q)) (acEnergy (tot ChanAcc.apparent))
  let aux (m : MeterSt) (n : Nat) : MeterSt :=
    let c := accOf h (4 + n)
    let fs := fld (p.cfg (Reg.METER_AUX_CFG n)) 31 16
    let thr := fld (p.cfg (Reg.METER_AUX_NL n)) 15 0
    if c.n = 0 || decide (absI c.p * fs * 64 < (thr * c.dt * 83886080000 : Nat)) then m
    else m.route (0x1000 + 16 * n) (auxEnergy fs c.p) (auxEnergy fs c.q) (auxEnergy fs c.apparent)
  let m := (List.range 12).foldl aux m
  let m := p.meter.portAcc.foldl (fun m e => m.add (0x2000 + 16 * e.1) (e.2 * 131072 / 9000000000000 : Nat)) m
  let m := m.add 0x4007 (p.meter.intAcc * 65536 / 3600000000 : Nat)
  { p with meter := { m with half := [], portAcc := [], intAcc := 0 } }

/-- The rise of a register since the last boundary. -/
def Plane.rise (p : Plane) (r : Nat) : Int := p.meter.count r - Tab.get (fun _ => 0) p.meter.bound r

/-- Add to a table of sums by tag; a port tagged T63 counts for T0 (R181). -/
def addTag (t : Tab Int) (tag : Nat) (v : Int) : Tab Int :=
  let k := if tag = 63 then 0 else tag
  Tab.put (fun _ => 0) t k (Tab.get (fun _ => 0) t k + v)

/-- Weigh the half-cycle's rises to the tags in force during it (R183). -/
def Plane.weigh (p : Plane) : Plane :=
  let w := (List.range 128).foldl (fun t n => addTag t (portTag p.cfg n) (p.rise (0x2000 + 16 * n))) p.acct.w
  let aux := (List.range 12).foldl (fun t n => addTag t (auxTag p.cfg n) (p.rise (0x1000 + 16 * n))) p.acct.aux
  let ex := (List.range 12).foldl (fun t n => addTag t (auxTag p.cfg n) (p.rise (0x1001 + 16 * n))) p.acct.auxExp
  { p with acct := { p.acct with w := w, aux := aux, auxExp := ex } }

/-- Registers whose rise at a boundary matters: ports, auxiliary import and export. -/
def riseRegs : List Nat :=
  (List.range 128).map (fun n => 0x2000 + 16 * n) ++ (List.range 12).flatMap fun n => [0x1000 + 16 * n, 0x1001 + 16 * n]

/-- Pulses owed (R191): the rise of each output's register. -/
def Plane.owePulses (p : Plane) : Plane :=
  (List.range 8).foldl (fun p n =>
    let cfg := p.cfg (Reg.PULSE_PO_CFG n)
    let reg := fld cfg 31 16
    let const := (p.cfg (Reg.PULSE_PO_CONST n)).toNat
    let x : PulseSt := Tab.get (fun _ => {}) p.pulses n
    let v := p.meter.count reg
    if !bit cfg 0 ∨ const = 0 then { p with pulses := Tab.put (fun _ => {}) p.pulses n { x with last := v } }
    else
      let total := x.residue + (v - x.last)
      let k := if total < 0 then 0 else (total / const).toNat
      let take := min k (65535 - x.owed)
      let y : PulseSt := { residue := total - take * const, owed := x.owed + take, last := v }
      let p := { p with pulses := Tab.put (fun _ => {}) p.pulses n y }
      if y.owed = 65535 then p.evt Reg.PULSE_EVT (8 + n) else p) p

/-- What has been sampled since the last boundary goes into the registers and to the tags in force (R175, R176, R183). -/
def Plane.takeHalf (p : Plane) : Plane :=
  let p := p.accumulate.weigh
  { p with meter := { p.meter with bound := riseRegs.foldl (fun t r => Tab.put (fun _ => 0) t r (p.meter.count r)) p.meter.bound } }

/-- Metering at a half-cycle boundary. -/
def Plane.meterBoundary (p : Plane) : Plane :=
  if !p.acct.running then { p with meter := { p.meter with half := [], portAcc := [], intAcc := 0 } }
  else p.takeHalf.owePulses

/-! ### Values of a cycle (R173) -/

/-- RMS, powers and power factor of a channel over its cycle: its registers from `base`. `toV`, `toI` scale mean squares to µV² and
(10 µA)², `toP` scales Σ v·i·P / Σ P to mW. A power factor with no apparent power is a value the spec does not state. -/
def cycleVals (vals : Tab Int) (base : Nat) (c : ChanAcc) (toV toI : Nat → Nat) (toP : Int → Int) (hasV : Bool) (k : Nat) : Tab Int :=
  if c.n = 0 then vals
  else
    let put (t : Tab Int) (r : Nat) (v : Int) : Tab Int := Tab.put (fun _ => 0) t (base + r) v
    let v := isqrt (toV c.v2 / c.n)
    let i := isqrt (toI c.i2 / c.n)
    let t := put vals 9 i
    if !hasV then t
    else
      let pw := toP (c.p / c.dt)
      let s : Int := (v * i / 100000000 : Nat)
      let t := put (put (put (put t 8 v) 10 pw) 11 (toP (c.q / c.dt))) 12 s
      put t 13 (if s = 0 then (Config.free (k * 65536 + base) : Nat) else pw * 10000 / s)

/-- The values of the last complete cycle, and every eighth cycle the harmonics (R173). (DESIGN CHOICE, safe: assumption 15.) -/
def Plane.cycleValues (p : Plane) (cycle : Nat) : Plane :=
  let c := p.meter.cyc
  let acV (x : Nat) : Nat := x * 4096
  let acI (x : Nat) : Nat := x * 16 / 100
  let acP (x : Int) : Int := x * 256 / 1000000000
  let vals := (List.range 3).foldl (fun t k => cycleVals t (16 * k) (accOf c k) acV acI acP true cycle) p.meter.vals
  let vals := cycleVals vals 0x40 (accOf c 3) acV acI acP false cycle
  let get (r : Nat) : Int := Tab.get (fun _ => 0) vals r
  let put (t : Tab Int) (r : Nat) (v : Int) : Tab Int := Tab.put (fun _ => 0) t r v
  let sum (q : Nat) : Int := get q + get (16 + q) + get (32 + q)
  let vals := put (put (put vals 0x3A (sum 10)) 0x3B (sum 11)) 0x3C (sum 12)
  let vals := put vals 0x3D (if sum 12 = 0 then (Config.free (cycle * 65536 + 0x30) : Nat) else sum 10 * 10000 / sum 12)
  let vals := (List.range 12).foldl (fun t n =>
    let fs := fld (p.cfg (Reg.METER_AUX_CFG n)) 31 16
    cycleVals t (0x1000 + 16 * n) (accOf c (4 + n)) acV (fun x => x * (fs * 10000) ^ 2 / 2 ^ 46)
      (fun x => x * fs * 64 / 83886080000) true cycle) vals
  let harm := (List.range 7).flatMap fun sg => (List.range 63).flatMap fun o =>
    [0x6000 + 512 * sg + 8 * (o + 1), 0x6000 + 512 * sg + 8 * (o + 1) + 1]
  let thd := [0x0E, 0x0F, 0x1E, 0x1F, 0x2E, 0x2F, 0x4F] ++ (List.range 12).flatMap fun n => [0x100E + 16 * n, 0x100F + 16 * n]
  let vals := if cycle % 8 = 0 then (harm ++ thd).foldl (fun t r => put t r (Config.harmonic r cycle)) vals else vals
  { p with meter := { p.meter with vals := vals, cyc := [] } }

/-! ### Interval close (R180 to R188) -/

/-- Whether `a` comes before `b` in the order of R182: larger fraction, lower tag among equals. -/
def apportionRank (fr : List Nat) (a b : Nat) : Bool := decide (fr.getD b 0 < fr.getD a 0) || (fr.getD a 0 == fr.getD b 0 && decide (a < b))

/-- Shares and carries (R182). (DEDUCED, unsafe: assumption 38.) -/
def apportion (l : Int) (w0 : List Int) (r : List Int) : List Int × List Int :=
  let w := if w0.sum = 0 then 1 :: w0.drop 1 else w0
  let tot := w.sum
  let ks := List.range 63
  let q := ks.map fun k => l * w.getD k 0 / tot
  let s := ks.map fun k => (l * w.getD k 0 - q.getD k 0 * tot) * 2 ^ 32 / tot + r.getD k 0
  let base := ks.map fun k => q.getD k 0 + s.getD k 0 / 2 ^ 32
  let fr := ks.map fun k => (s.getD k 0 - s.getD k 0 / 2 ^ 32 * 2 ^ 32).toNat
  let d := (l - base.sum).toNat
  let share := ks.map fun k =>
    base.getD k 0 + (if (ks.countP fun j => apportionRank fr j k) < d then 1 else 0)
  let r1 := ks.map fun k => s.getD k 0 - (share.getD k 0 - q.getD k 0) * 2 ^ 32
  (share, (r1.headD 0 - r1.sum) :: r1.drop 1)

/-- The Tarn page of the energy group (R187). -/
def energyPage : Nat := 12288

/-- The energy group as it stands. -/
def Plane.energyGroup (p : Plane) (final : Bool) : PageVal :=
  .energy p.meter.energy p.acct.carry p.acct.intv ((List.range 8).map fun n =>
    let x : PulseSt := Tab.get (fun _ => {}) p.pulses n
    (x.residue, x.owed)) (p.cfgF Reg.TACC_CFG 7 0) final

/-- Commit the energy group (R187); after the power-fail commit none is made (R430). -/
def Plane.meterCommit (p : Plane) (final : Bool) : Plane :=
  if p.acct.frozen then p
  else { p with tarn := { p.tarn.commitStore [(energyPage, p.energyGroup final)] with waitNext := insertNat 17 p.tarn.waitNext },
                acct := { p.acct with sinceCommit := 0, frozen := final } }

/-- The METER_SNAPSHOT record's body (R187). -/
def Plane.snapshotBody (p : Plane) : List Byte :=
  let n (r : Nat) : List Byte := leBytes 8 (toTwos 64 (p.meter.count r))
  leBytes 8 p.acct.intv ++ n 0x4000 ++ n 0x4001 ++ n 0x4007 ++ n 0x4008 ++
    ((List.range 63).flatMap fun k => n (0x3000 + 16 * k)) ++ (List.range 63).flatMap fun k => n (0x3001 + 16 * k)

/-- Close the current interval at `now`; `early` closes do not advance the numbering, and take in what was sampled since the last boundary (R180,
R186). The result carries the interval digest (R184). (DEDUCED, unsafe: assumption 38.) -/
def Plane.closeInterval (p : Plane) (now tt : Nat) (early : Bool) : Plane × Nat :=
  let p := if early then p.takeHalf else p
  let m := p.meter
  let d (r : Nat) : Int := m.count r - Tab.get (fun _ => 0) m.whole r
  let eIn := d 0x4002
  let eAux := d 0x4005
  let ePort := d 0x4004
  let eInt := d 0x4007
  let l := eIn - ePort - eInt
  let ks := List.range 63
  let w := ks.map fun k => Tab.get (fun _ => 0) p.acct.w k
  let aux := ks.map fun k => Tab.get (fun _ => 0) p.acct.aux k
  let ex := ks.map fun k => Tab.get (fun _ => 0) p.acct.auxExp k
  let (share, carry) := apportion l w (ks.map fun k => Tab.get (fun _ => 0) p.acct.carry k)
  let at0 (k : Nat) (v : Int) : Int := if k = 0 then v else 0
  let imp := ks.map fun k => w.getD k 0 + aux.getD k 0 + share.getD k 0 + at0 k eInt
  let exp := ks.map fun k => ex.getD k 0 + at0 k (d 0x4003)
  let up (m : MeterSt) (r : Nat) (v : Int) : MeterSt := m.add r (v * 2 ^ 32)
  let m := ks.foldl (fun m k =>
    let b := 0x3000 + 16 * k
    up (up (up (up (up (up m b (imp.getD k 0)) (b + 1) (exp.getD k 0)) (b + 2) (w.getD k 0)) (b + 3) (aux.getD k 0))
      (b + 4) (share.getD k 0)) (b + 5) (at0 k eInt)) (up m 0x4008 l)
  let whole := [0x4002, 0x4003, 0x4004, 0x4005, 0x4007].foldl (fun t r => Tab.put (fun _ => 0) t r (m.count r)) m.whole
  let carryTab := (ks.zip carry).foldl (fun t e => Tab.put (fun _ => 0) t e.1 e.2) []
  let p := { p with meter := { m with whole := whole },
                    acct := { p.acct with carry := carryTab, w := [], aux := [], auxExp := [], intv := p.acct.intv + 1,
                                          idx := if early then p.acct.idx else p.acct.idx + 1,
                                          sinceCommit := p.acct.sinceCommit + 1 } }
  let w32 (v : Int) : Word := BitVec.ofNat 32 (toTwos 32 v)
  let p := (p.wr64 Reg.TACC_INTV p.acct.intv).wr64 Reg.TACC_CLOSE_AT now
  let p := ((((p.wr Reg.TACC_D_AC (w32 (eIn + eAux))).wr Reg.TACC_D_PORT (w32 ePort)).wr Reg.TACC_D_AUX (w32 eAux)).wr
    Reg.TACC_D_INT (w32 eInt)).wr Reg.TACC_D_LOSS (w32 l)
  let p := p.wrF Reg.TACC_STAT 8 8 (if l < 0 then 1 else 0)
  let p := ks.foldl (fun p k => (p.wr (Reg.TACC_LI k) (w32 (imp.getD k 0))).wr (Reg.TACC_LS k) (w32 (share.getD k 0))) p
  let digest := crc32c (leBytes 8 p.acct.intv ++ leBytes 8 (toTwos 64 l) ++
    (imp.flatMap fun v => leBytes 8 (toTwos 64 v)) ++ exp.flatMap fun v => leBytes 8 (toTwos 64 v))
  let cs := max 1 (fld (p.cfg Reg.TACC_CFG) 7 0)
  let p := if !early ∧ p.acct.sinceCommit ≥ cs then p.meterCommit false else p
  let snap := min 60 (max 1 (fld (p.cfg Reg.TACC_CFG) 15 8))
  let p := if p.acct.snapTt + snap * 60000000000 ≤ tt then
      { p.stage 0x2A 0 0 p.snapshotBody with acct.snapTt := tt } else p
  (p, digest)

/-- An interval closes in a plane, with its digest sent to the other (R184). -/
def State.closeInterval (s : State) (i : PlaneId) (early : Bool) : State :=
  let (p, d) := (s.plane i).closeInterval s.now ((s.plane i).tt s.now) early
  (s.setPlane i p).sendDigest i 2 s.now d

/-- The refreshes of kind 7 points that changes of the last tick bring: energy registers at a half-cycle boundary, the values of a cycle at tick 0, the
registers of an interval at its close (R126, R128, R173). -/
def Plane.meterRefresh (p : Plane) (now : Nat) : Plane :=
  let cycle := cycleOf now
  let half := now % 2048 == 1 && p.acct.running
  let tick0 := half && now % 4096 == 1
  let close := p.acct.running && p.rd64 Reg.TACC_CLOSE_AT + 1 == now
  if !half && !close then p
  else p.refreshMeter fun r =>
    if r / 4096 = 3 ∨ r = 0x4008 ∨ r = 0x400A then close
    else if meterRegEnergy r then half
    else tick0 && r / 4096 != 2 && (cycle % 8 == 0 || (r / 4096 != 6 && !(r / 4096 < 2 && 14 ≤ r % 16)))

/-! ### Meanings -/

/-- Whether a payload is a metering block of the tick `t` (R168, R169): the AC block, an auxiliary block, or the port block whose turn it is. -/
def meterBlockOf (payload : List Byte) (t : Nat) : Bool :=
  let kind := ofLe (slice payload 0 1)
  (0x10 ≤ kind && kind ≤ 0x12) || (kind == 0x13 && ofLe (slice payload 1 1) == t % 16)

/-- A metering block of the tick `t` in a plane, which takes each kind once a tick (R168). -/
def Plane.meterInput (p : Plane) (payload : List Byte) (t : Nat) : Plane :=
  let kind := ofLe (slice payload 0 1)
  if !meterBlockOf payload t || p.meter.got.contains kind then p
  else
    let p := { p with meter := { p.meter with got := p.meter.got ++ [kind] } }
    if kind = 0x10 then p.acBlock payload
    else if kind = 0x11 then p.auxBlock 0 payload
    else if kind = 0x12 then p.auxBlock 6 payload
    else p.portBlock payload

/-- METER_SAMPLE (R168, R169): an INPUT block's payload reaches both planes. (DEDUCED, unsafe: assumption 38.) -/
def execMeterSample (payload : List Byte) (s : State) : Host.Outcome State Fault Refusal :=
  .next (if !meterBlockOf payload s.now then s
    else
      let s := if ofLe (slice payload 0 1) = 0x13 then s.portReadings payload else s
      (s.sendInput s.now 0 0 payload).updBoth fun p => p.meterInput payload s.now)

/-- METER_CHANNEL_FAULT (R179). -/
def execMeterChannelFault (p : PlaneId) (channel : BitVec 12) (faulted : Bool) (s : State) : Host.Outcome State Fault Refusal :=
  .next (s.upd p fun x => x.setFault channel.toNat faulted)

/-- CALIBRATION_CHECK (R179): a deviation above 0.1 % is drift, above 1 % faults the channel. Of an auxiliary channel `ppm` is the ones density in
parts per million, and the check fails outside 5 % to 95 % or with no bitstream activity. (DEDUCED, unsafe: assumption 38.) -/
def execCalibrationCheck (p : PlaneId) (channel : BitVec 12) (ppm : Int) (s : State) : Host.Outcome State Fault Refusal :=
  let ch := channel.toNat
  let aux := ch / 256 = 1
  let drift := !aux && decide (absI ppm > 1000)
  let bad := if aux then decide (ppm < 50000) || decide (950000 < ppm) || (s.plane p).meter.faults.contains ch else decide (absI ppm > 10000)
  .next (s.upd p fun x =>
    let was := x.meter.bad ch
    let x := ((x.bkgDone 2 (x.bkgLate 2 s.now) s.now).bkgBlock).bump Reg.METER_CAL_CNT 15 0
    let x := { x with meter := { x.meter with
      calFault := if bad then insertNat ch x.meter.calFault else x.meter.calFault.filter fun c => c != ch,
      drifts := if drift then insertNat ch x.meter.drifts else x.meter.drifts.filter fun c => c != ch } }
    let x := if drift then (x.bump Reg.METER_CAL_FAIL_CNT 15 0).evt Reg.METER_EVT 9 else x
    if was ≠ x.meter.bad ch then x.channelFault ch (if bad then 3 else 0) ppm
    else if drift then x.stage 0x28 0 2 (leBytes 2 ch ++ [4, 0] ++ leBytes 4 (toTwos 32 ppm))
    else x)

/-- INTERVAL_CLOSE (R180): at the first tick 0 at which TT reaches T_org + i × 10^9 ns. -/
def execIntervalClose (p : PlaneId) (s : State) : Host.Outcome State Fault Refusal :=
  let x := s.plane p
  .next (if x.acct.running ∧ s.now % 4096 = 0 ∧ x.acct.org + (x.acct.idx + 1) * 1000000000 ≤ x.tt s.now then s.closeInterval p false
    else s)

/-- A pulse output at the field side. -/
def FieldSide.pulse (f : FieldSide) (n : Nat) : PulseOut := Tab.get (fun _ => {}) f.pulses n
def FieldSide.setPulse (f : FieldSide) (n : Nat) (x : PulseOut) : FieldSide := { f with pulses := Tab.put (fun _ => {}) f.pulses n x }

/-- Width of a pulse output, in ns (R196). -/
def pulseWidth (g : Nat → Word) (n : Nat) : Nat := max 1 (fld (g (Reg.PULSE_PO_CFG n)) 15 8) * 1000000

/-- PULSE_START (R192): the next queued pulse starts once the gap after the last has passed. -/
def execPulseStart (n : Fin 8) (s : State) : Host.Outcome State Fault Refusal :=
  let x := s.fs.pulse n
  .next (if !x.active ∧ 0 < x.queued ∧ x.until_ ≤ s.ttNow then
    s.field fun f => f.setPulse n { queued := x.queued - 1, made := (x.made + 1) % 2 ^ 32, active := true,
                                    until_ := s.ttNow + pulseWidth s.cfg n }
  else s)

/-- PULSE_END (R192): the pulse ends after WIDTH ms; the next starts no sooner than WIDTH ms later. -/
def execPulseEnd (n : Fin 8) (s : State) : Host.Outcome State Fault Refusal :=
  let x := s.fs.pulse n
  .next (if x.active ∧ x.until_ ≤ s.ttNow then
    s.field fun f => f.setPulse n { x with active := false, until_ := s.ttNow + pulseWidth s.cfg n }
  else s)

end Sys2Proof.Machine
end

