-- ==== Sys2Proof/Machine/Paths.lean ====
section
/-!
DEFINITION. Access paths: the registers and buffers that each path holds for itself (R49, R54, R66), forbidden accesses
(R308, R309), and the end of a Moarno session.
-/
namespace Sys2Proof.Machine

/-- What a path holds: 0 the HRP, 1 to 8 the Moarno sessions. -/
def Plane.path (p : Plane) (k : Nat) : PathState := Tab.get (fun _ => {}) p.paths k

/-- Change what a path holds. -/
def Plane.updPath (p : Plane) (k : Nat) (f : PathState → PathState) : Plane :=
  { p with paths := Tab.put (fun _ => {}) p.paths k (f (p.path k)) }

/-- A register kept per access path. -/
def Plane.prd (p : Plane) (k a : Nat) : Word := Tab.get regDefault (p.path k).regs a

/-- Write a register kept per access path. -/
def Plane.pwr (p : Plane) (k a : Nat) (w : Word) : Plane :=
  p.updPath k fun x => { x with regs := Tab.put regDefault x.regs a w }

/-- Field `[hi:lo]` of a register kept per access path. -/
def Plane.prdF (p : Plane) (k a hi lo : Nat) : Nat := fld (p.prd k a) hi lo

/-- The held low word of a path (R49): the mask of the bytes written and the data. -/
def Plane.heldLow (p : Plane) (k a : Nat) : Word × Word := Tab.get (fun _ => (0, 0)) (p.path k).held a

/-- A register window kept per access path, as bytes. -/
def Plane.pbytes (p : Plane) (k a n : Nat) : List Byte := slice (wordBytes ((List.range ((n + 3) / 4)).map fun i => p.prd k (a + 4 * i))) 0 n

/-- Write bytes into a register window kept per access path, from its first word on. -/
def Plane.pputBytes (p : Plane) (k a : Nat) (b : List Byte) : Plane :=
  ((bytesWords b).zipIdx).foldl (fun p x => p.pwr k (a + 4 * x.2) x.1) p

/-- Fill a window of `n` words kept per access path with bytes, 0 beyond them. -/
def Plane.pfill (p : Plane) (k a n : Nat) (b : List Byte) : Plane := p.pputBytes k a (slice b 0 (4 * n))

/-- A forbidden access (R308): counted, with its tag, path, rule, address and stamp; and its record (R309). -/
def Plane.violate (p : Plane) (path : Nat) (tag : Tag) (write : Bool) (rule addr now : Nat) : Plane :=
  let p := (p.bump Reg.ACCESS_VIOL_CNT 15 0).evt Reg.ACCESS_EVT 8
  let p := p.wr Reg.ACCESS_LAST_VIOL (BitVec.ofNat 32 (tag.toNat + 256 * write.toNat + 4096 * path + 65536 * rule))
  let p := (p.wr Reg.ACCESS_LAST_VIOL_ADDR (BitVec.ofNat 32 addr)).wr64 Reg.ACCESS_LAST_VIOL_AT now
  let sec := p.tt now / 1000000000
  if (p.path path).violSec = some sec then p.updPath path fun x => { x with supp := x.supp + 1 }
  else
    let p := p.stage 0x40 0 2 ([BitVec.ofNat 8 path, BitVec.ofNat 8 (tag.toNat + 64 * write.toNat), BitVec.ofNat 8 rule, 0] ++
      leBytes 4 addr ++ leBytes 8 now ++ leBytes 4 (p.path path).supp)
    p.updPath path fun x => { x with violSec := some sec, supp := 0 }

/-- A Moarno session. -/
def Plane.session (p : Plane) (k : Nat) : Session := Tab.get (fun _ => {}) p.sess k
def Plane.setSession (p : Plane) (k : Nat) (x : Session) : Plane := { p with sess := Tab.put (fun _ => {}) p.sess k x }

/-- Close a session: what its path held ends with it (R66, R365). -/
def Plane.closeSession (p : Plane) (k : Nat) : Plane :=
  if (p.session k).opened then
    let p := (p.setSession k {}).updPath (k + 1) fun _ => {}
    (p.wr (Reg.ACCESS_SESS k) 0).evt Reg.ACCESS_EVT 9
  else p

/-- Close the sessions that satisfy `q`. -/
def Plane.closeSessions (p : Plane) (q : Session → Bool) : Plane :=
  (List.range 8).foldl (fun p k => if q (p.session k) then p.closeSession k else p) p

end Sys2Proof.Machine
end

