-- ==== Sys2Proof/Machine/Keys.lean ====
section
/-!
DEFINITION. Keys (chapter 14): Wellspring and the fixed slots, staging, verifying and committing, invalidation, re-enrolment
and the entropy tests. A host's write of K_OP or ZERO reaches the operations here through the register file.
-/
namespace Sys2Proof.Machine

/-! ### Material -/

/-- SM2, order n of the curve (GM/T 0003). (PRESUMED, safe: assumption 12.) -/
def sm2Order : Nat := 0xFFFFFFFEFFFFFFFFFFFFFFFFFFFFFFFF7203DF6B21C6052B53BBF40939D54123

/-- ASCII bytes. -/
def ascii (l : List Nat) : List Byte := l.map (BitVec.ofNat 8)

/-- The bytes of a function, from index 0. -/
def bytesOf (f : Nat → Byte) (n : Nat) : List Byte := (List.range n).map f

/-- Wellspring (R322). -/
def Plane.root (p : Plane) : List Byte := bytesOf (Config.root p.id.num p.keys.bank) 32

/-- Material of a type from a stream of bytes: 16 bytes for SM4, d = (40 bytes mod (n - 1)) + 1 for an SM2 private key, 32 bytes
otherwise (R332). -/
def formMat (type : Nat) (f : Nat → Byte) : List Byte :=
  if type = 3 then bytesOf f 16
  else if type = 1 then beBytes 32 (ofBe (bytesOf f 40) % (sm2Order - 1) + 1)
  else bytesOf f 32

/-- Material derived from a parent, a label, TYPE and TAG (R332). -/
def deriveMat (parent label : List Byte) (type tag : Nat) : List Byte :=
  formMat type (Config.kdf parent (label ++ [BitVec.ofNat 8 type, BitVec.ofNat 8 tag]))

/-- "KVX-DEVICE-IDENTITY", padded with zeros to 32 bytes (R328). -/
def identityLabel : List Byte :=
  ascii [0x4B, 0x56, 0x58, 0x2D, 0x44, 0x45, 0x56, 0x49, 0x43, 0x45, 0x2D, 0x49, 0x44, 0x45, 0x4E, 0x54, 0x49, 0x54, 0x59,
    0, 0, 0, 0, 0, 0, 0, 0, 0, 0, 0, 0, 0]

/-- X ‖ Y of an SM2 key from its material. -/
def publicOf (type : Nat) (mat : List Byte) : List Byte := if type = 1 then bytesOf (Config.sm2Public mat) 64 else mat

/-- SM3-HMAC. -/
def hmacOf (key m : List Byte) : List Byte := bytesOf (Config.hmac key m) 32

/-- The key check value of material of a type (R334). -/
def kcvOf (type : Nat) (mat : List Byte) : Nat :=
  let three (b : List Byte) : Nat := ofLe (b.take 3)
  if type = 1 ∨ type = 2 then three (sm3 (publicOf type mat))
  else if type = 3 then three (bytesOf (Config.sm4 3 [] mat (List.replicate 16 0)) 16)
  else if type = 4 then three (hmacOf mat (List.replicate 64 0))
  else three (sm3 (deriveMat mat (List.replicate 32 0) 5 0))

/-- A digest with Z as GM/T 0003 signs it: of a message, or a digest that already holds it (R340). -/
def sm2Digest (pub m : List Byte) : List Byte := sm3 (bytesOf (Config.sm2Z pub) 32 ++ m)

/-- SM4-GCM: ciphertext with its 16-byte tag, and the tag of a ciphertext. -/
def gcmTag (iv key aad ct : List Byte) : List Byte := bytesOf (Config.sm4 1 iv key (leBytes 4 aad.length ++ aad ++ ct)) 16
def gcmSeal (iv key aad text : List Byte) : List Byte :=
  let ct := bytesOf (Config.sm4 0 iv key text) text.length
  ct ++ gcmTag iv key aad ct

/-- Open an SM4-GCM ciphertext with its tag at the end. -/
def gcmOpen (iv key aad sealed : List Byte) : Option (List Byte) :=
  let n := sealed.length - 16
  let ct := sealed.take n
  if sealed.length < 16 ∨ gcmTag iv key aad ct ≠ sealed.drop n then none else some (bytesOf (Config.sm4 2 iv key ct) n)

/-! ### Slots (R326, R328) -/

/-- A key slot; slots 0 and 1 are fixed. -/
def Plane.keySlot (p : Plane) (n : Nat) : KeySlot :=
  if n = 0 then { st := .active, type := 5, use := 64, key := if p.keys.rootOk then some p.root else none }
  else if n = 1 then
    let mat := deriveMat p.root identityLabel 1 0
    { st := .active, type := 1, use := 769, label := ofLe ((sm3 identityLabel).take 4),
      kcv := if p.keys.rootOk then kcvOf 1 mat else 0, key := if p.keys.rootOk then some mat else none }
  else Tab.get (fun _ => {}) p.keys.slots n

/-- Replace a slot. -/
def Plane.setKey (p : Plane) (n : Nat) (x : KeySlot) : Plane :=
  { p with keys := { p.keys with slots := Tab.put (fun _ => {}) p.keys.slots n x } }

/-- The active key of a slot that may be used (R322, R336). -/
def Plane.activeKey (p : Plane) (n : Nat) : Option (List Byte) :=
  let x := p.keySlot n
  if p.keys.rootOk ∧ x.st = .active then x.key else none

/-- A slot's 16-byte descriptor (R326). -/
def KeySlot.desc (x : KeySlot) (fixed : Bool) : List Byte :=
  [BitVec.ofNat 8 (x.st.num + 8 * x.staged.isSome.toNat + 16 * x.verified.toNat + 32 * x.imported.toNat + 64 * fixed.toNat),
   BitVec.ofNat 8 x.type, BitVec.ofNat 8 x.parent, BitVec.ofNat 8 x.tag] ++ leBytes 2 x.use ++ leBytes 2 x.gen ++
    leBytes 4 x.label ++ leBytes 3 x.kcv ++ [0]

/-- A slot's descriptor by number. -/
def Plane.keyDesc (p : Plane) (n : Nat) : List Byte := (p.keySlot n).desc (n < 2)

/-- X ‖ Y of a slot's active SM2 key; 0 for other types. -/
def Plane.keyPublic (p : Plane) (n : Nat) : List Byte :=
  let x := p.keySlot n
  match p.activeKey n with
  | some mat => if x.type = 1 ∨ x.type = 2 then publicOf x.type mat else List.replicate 64 0
  | none => List.replicate 64 0

/-- Slots not EMPTY (KEY.USED). -/
def Plane.keysUsed (p : Plane) : Nat := 2 + p.keys.slots.countP fun e => e.2.st != .empty

/-- The Tarn page of a slot's sealed blob, and what it holds: the blobs of two slots, each descriptor and material. -/
def keyPage (n : Nat) : Nat := 15616 + n / 2
def Plane.keyPageVal (p : Plane) (n : Nat) : PageVal :=
  let l := ([n / 2 * 2, n / 2 * 2 + 1].filter fun k => 2 ≤ k).flatMap fun k =>
    let x := p.keySlot k
    match x.st, x.key with
    | .active, some mat => [(k, { x with staged := none, verified := false : KeySlot }.desc false ++ mat)]
    | _, _ => []
  if l = [] then .zero else .keys l

/-! ### Arguments (R327, R329, R331, R333) -/

/-- Uses a type allows. -/
def typeUses (type : Nat) : Nat := [0, 809, 262, 44, 128, 64].getD type 0

/-- Whether mask `a` is part of `b`. -/
def subMask (a b : Nat) : Bool := a &&& b == a

/-- Whether R329 refuses an operation. -/
def Plane.keyRefused (p : Plane) (r : KeyReq) : Bool :=
  let x := p.keySlot r.slot
  let t := if x.st = .empty then r.tag else x.tag
  let a := r.access.toNat
  if r.slot < 2 then false
  else if 1 ≤ r.op ∧ r.op ≤ 3 then
    let px := p.keySlot r.parent
    !((a == t && t != 63) || (a == 0 && (t < 63 || (r.type == 2 && r.use == 256)))) ||
      (r.op == 2 && r.parent == 0 && t != 0) || (r.parent != 0 && px.st != .empty && px.tag != t && px.tag != 0)
  else x.st != .empty && a != x.tag && a != 0

/-- The code with which a staging is refused at its start, or 0. -/
def Plane.stageCode (p : Plane) (r : KeyReq) : Nat :=
  let x := p.keySlot r.slot
  let px := p.keySlot r.parent
  if r.slot < 2 then 0x12
  else if !p.keys.rootOk then 0x1B
  else if x.st = .invalid then 0x17
  else if r.op = 1 ∧ p.keys.entropyFail then 0x1A
  else if r.type = 0 ∨ r.type > 5 ∨ !subMask r.use (typeUses r.type) ∨ (r.type = 2 ∧ (r.op ≠ 3 ∨ r.parent ≠ 0)) ∨
      (r.tag ≠ 63 ∧ !tagActive p.rd r.tag) then 0x10
  else if x.st = .active ∧ (r.type ≠ x.type ∨ r.parent ≠ x.parent ∨ r.tag ≠ x.tag ∨ !subMask r.use x.use) then 0x10
  else if r.parent = 0 then (if r.op = 3 ∧ r.type ≠ 2 then 0x11 else 0)
  else if px.st = .invalid then 0x17
  else if px.st = .empty ∨ (r.op = 2 ∧ !px.use.testBit 6) ∨ (r.op = 3 ∧ !px.use.testBit 5) then 0x11
  else if r.op ≠ 1 ∧ (p.activeKey r.parent).isNone then 0x19
  else 0

/-- The material of an IMPORT (R333). -/
def Plane.unwrap (p : Plane) (r : KeyReq) : Option (List Byte) :=
  let n := if r.type = 3 then 16 else 32
  if r.type = 2 then (if r.payload.length = 64 ∧ Config.sm2OnCurve r.payload then some r.payload else none)
  else match p.activeKey r.parent with
    | none => none
    | some k =>
      if (p.keySlot r.parent).type = 3 then
        if r.payload.length ≠ 28 + n then none
        else gcmOpen (r.payload.take 12) k [BitVec.ofNat 8 r.type, BitVec.ofNat 8 r.tag, BitVec.ofNat 8 r.use] (r.payload.drop 12)
      else if r.payload.length = 96 + n ∧ Config.sm2DecOk k r.payload then some (bytesOf (Config.sm2Plain k r.payload) n)
      else none

/-- The number of a plane's next DRBG draw. -/
def Plane.nextDraw (p : Plane) : Nat := 2 * p.keys.draws + p.id.num
/-- Count a draw. -/
def Plane.drawn (p : Plane) : Plane := { p with keys := { p.keys with draws := p.keys.draws + 1 } }

/-! ### Operations in turn (R331, R334, R335) -/

/-- Whether VERIFY's test of material passes. -/
def Plane.keyTest (p : Plane) (type : Nat) (mat : List Byte) : Bool :=
  if type = 1 then
    let pub := publicOf 1 mat
    let e := sm2Digest pub []
    Config.sm2Verify pub e (bytesOf (Config.sm2Sign mat e p.nextDraw) 64)
  else if type = 2 then Config.sm2OnCurve mat
  else if type = 3 then
    let z := List.replicate 16 (0 : Byte)
    bytesOf (Config.sm4 4 [] mat (bytesOf (Config.sm4 3 [] mat z) 16)) 16 == z
  else true

/-- Begin an operation: what it will deliver, or the code it is answered at once. -/
def Plane.keyBegin (p : Plane) (r : KeyReq) : Nat × Option KeyRun :=
  let x := p.keySlot r.slot
  if r.op ≤ 3 then
    let code := p.stageCode r
    if code ≠ 0 then (code, none)
    else
      let lab := if r.op = 2 then ofLe ((sm3 r.label).take 4) else 0
      if r.op = 1 then
        (0, some (.stage { mat := formMat r.type (Config.random p.nextDraw), use := r.use,
                           imported := false, label := 0 }))
      else if r.op = 2 then
        match p.activeKey r.parent with
        | some k => (0, some (.stage { mat := deriveMat k r.label r.type r.tag, use := r.use,
                                       imported := (p.keySlot r.parent).imported, label := lab }))
        | none => (0x19, none)
      else match p.unwrap r with
        | some m => (0, some (.stage { mat := m, use := r.use, imported := true, label := 0 }))
        | none => (0, some (.fail 0x16))
  else if r.op = 5 ∧ r.slot < 2 then (0x12, none)
  else if !p.keys.rootOk then (0x1B, none)
  else if x.st = .invalid then (0x17, none)
  else match x.staged with
    | none => (0x13, none)
    | some m =>
      if r.op = 4 then (0, some (if p.keyTest x.type m.mat then .test (kcvOf x.type m.mat) else .fail 0x15))
      else if !x.verified then (0x14, none)
      else (0, some .commit)

/-- A slot whose staged key has become active (R335). -/
def KeySlot.committed (x : KeySlot) : KeySlot :=
  match x.staged with
  | some m => { x with key := some m.mat, use := m.use, imported := m.imported, label := m.label, kcv := x.stagedKcv,
                       gen := (x.gen + 1) % 65536, staged := none, verified := false, stagedKcv := 0 }
  | none => x

/-- Answer an operation on its path. -/
def Plane.keyAnswer (p : Plane) (path slot code : Nat) : Plane :=
  (p.pwr path Reg.KEY_K_RES (BitVec.ofNat 32 (code + 256 * slot))).evt Reg.KEY_EVT 8

/-- Start waiting operations until one runs or none is left. (DESIGN CHOICE, unsafe: assumption 46.) -/
def Plane.keyPump : Nat → Plane → Plane
  | 0, p => p
  | n + 1, p =>
    match p.keys.run, p.keys.queue with
    | none, r :: rest =>
      match p.keyBegin r with
      | (_, some run) =>
        let p := if r.op = 1 ∨ r.op = 4 then p.drawn else p
        let p := { p with keys := { p.keys with run := some run } }
        match run with
        | .commit =>
          let v := ((p.setKey r.slot (p.keySlot r.slot).committed).keyPageVal r.slot)
          { p with tarn := { p.tarn.commitStore [(keyPage r.slot, v)] with waitNext := insertNat 16 p.tarn.waitNext } }
        | _ => p
      | (code, none) => Plane.keyPump n (({ p with keys := { p.keys with queue := rest } }).keyAnswer r.path r.slot code)
    | _, _ => p

/-- Take the running operation off and start the next. -/
def Plane.keyNext (p : Plane) : Plane :=
  let p := { p with keys := { p.keys with queue := p.keys.queue.drop 1, run := none } }
  Plane.keyPump p.keys.queue.length p

/-- Drop a slot's staged key (R336). -/
def KeySlot.dropped (x : KeySlot) : KeySlot :=
  match x.key with
  | some _ => { x with staged := none, verified := false, stagedKcv := 0 }
  | none => {}

/-- The running operation completes (R331, R334). -/
def Plane.keyDone (p : Plane) : Plane :=
  match p.keys.queue, p.keys.run with
  | r :: _, some (.stage m) =>
    let x := p.keySlot r.slot
    let y : KeySlot := match x.st with
      | .empty => { st := .active, imported := m.imported, type := r.type, parent := r.parent, tag := r.tag, use := r.use,
                    label := m.label, staged := some m }
      | .active => { x with staged := some m, verified := false, stagedKcv := 0 }
      | .invalid => x
    ((p.setKey r.slot y).keyAnswer r.path r.slot 2).keyNext
  | r :: _, some (.test kcv) =>
    let x := p.keySlot r.slot
    if x.st = .active ∧ x.staged.isSome then
      let p := (p.setKey r.slot { x with verified := true, stagedKcv := kcv }).pwr r.path Reg.KEY_K_KCV (BitVec.ofNat 32 kcv)
      (p.keyAnswer r.path r.slot 2).keyNext
    else (p.keyAnswer r.path r.slot 0x13).keyNext
  | r :: _, some (.fail code) =>
    let x := p.keySlot r.slot
    let p := if code = 0x15 ∧ x.st = .active then p.setKey r.slot x.dropped else p
    (p.keyAnswer r.path r.slot code).keyNext
  | _, _ => p

/-- A commit's store has completed (R335). -/
def Plane.keyStored (p : Plane) : Plane :=
  match p.keys.queue, p.keys.run with
  | r :: _, some .commit =>
    let x := p.keySlot r.slot
    if x.staged.isSome then ((p.setKey r.slot x.committed).keyAnswer r.path r.slot 2).keyNext
    else (p.keyAnswer r.path r.slot 0x13).keyNext
  | _, _ => p

/-! ### Invalidation (R338) -/

/-- A set of slots with the ACTIVE slots that descend from it through PARENT. -/
def Plane.descend (p : Plane) : Nat → List Nat → List Nat
  | 0, l => l
  | n + 1, l =>
    let more := (p.keys.slots.filter fun e => e.2.st == .active && l.contains e.2.parent && !l.contains e.1).map Prod.fst
    if more = [] then l else Plane.descend p n (more ++ l)

/-- Count `n` more in field `[15:0]`, saturating. -/
def Plane.bumpBy (p : Plane) (a n : Nat) : Plane := p.wrF a 15 0 (satAdd 65535 (p.rdF a 15 0) n)

/-- Invalidate a set of slots at once; their erasure follows within 1 ms. -/
def Plane.invalidate (p : Plane) (path : Option Nat) (sel tag : Nat) (l : List Nat) : Plane :=
  let slots := below 256 fun n => l.contains n && (p.keySlot n).st == .active && 2 ≤ n
  let p := slots.foldl (fun p n => p.setKey n { p.keySlot n with st := .invalid }) p
  let p := match p.keys.queue, p.keys.run with
    | r :: _, some .commit =>
      if slots.contains r.slot then
        ({ p with keys := { p.keys with queue := p.keys.queue.drop 1, run := none } }).keyAnswer r.path r.slot 0x18
      else p
    | _, _ => p
  let p := (p.bumpBy Reg.KEY_INVAL_CNT slots.length).evt Reg.KEY_EVT 9
  let p := p.stage 0x49 (BitVec.ofNat 6 tag) 1 (leBytes 2 slots.length ++ [0, 0] ++
    leBytes 32 ((slots.map fun n => 2 ^ n).sum)) (1 ≤ tag && tag ≤ 62)
  let p := p.closeSessions fun x => slots.contains x.anchor || slots.contains x.ident
  let p := { p with keys := { p.keys with erase := p.keys.erase ++ [{ path := path, sel := sel, slots := slots }] } }
  let p := match path with
    | some k => p.pwr k Reg.KEY_K_RES (BitVec.ofNat 32 (1 + 256 * sel))
    | none => p
  Plane.keyPump p.keys.queue.length p

/-- The erasures of invalidated slots are complete. -/
def Plane.eraseDone (p : Plane) : Plane :=
  let es := p.keys.erase
  let slots := es.flatMap fun e => e.slots
  let p := slots.foldl (fun p n => p.setKey n {}) { p with keys := { p.keys with erase := [] } }
  let pages := slots.map keyPage
  let p := if slots = [] then p
    else { p with tarn := p.tarn.commit ((pages.foldl (fun d n => insertNat n d) []).map fun g => (g, p.keyPageVal (2 * (g - 15616)))) }
  es.foldl (fun p e => match e.path with
    | some k => p.keyAnswer k e.sel 2
    | none => p) p

/-! ### A write of K_OP or of ZERO -/

/-- A path's arguments as they stand (R331). -/
def Plane.keyReq (p : Plane) (path : Nat) (access : Tag) (op : Nat) : KeyReq :=
  { path := path, access := access, op := op, slot := p.prdF path Reg.KEY_K_SEL 7 0, type := p.prdF path Reg.KEY_K_ARG 3 0,
    parent := p.prdF path Reg.KEY_K_ARG 15 8, tag := p.prdF path Reg.KEY_K_ARG 21 16, use := p.prdF path Reg.KEY_K_USE 9 0,
    label := p.pbytes path (Reg.KEY_LABEL 0) 32, payload := p.pbytes path (Reg.KEY_IMP 0) (4 * min 64 (p.prdF path Reg.KEY_K_ARG 31 24)) }

/-- A write of K_OP (R331, R335, R338). (DEDUCED, unsafe: assumption 45.) -/
def Plane.keyOp (p : Plane) (path : Nat) (access : Tag) (op now : Nat) : Plane :=
  let r := p.keyReq path access op
  let x := p.keySlot r.slot
  if op = 0 then p
  else if op > 7 then p.keyAnswer path r.slot 0x10
  else if p.keyRefused r then (p.violate path access true 4 Reg.KEY_K_OP now).keyAnswer path r.slot 0x1C
  else if op = 6 then
    if x.st = .invalid then p.keyAnswer path r.slot 0x17
    else if x.staged.isNone then p.keyAnswer path r.slot 0x13
    else
      let p := p.setKey r.slot x.dropped
      let p := match p.keys.queue, p.keys.run with
        | q :: _, some .commit => if q.slot = r.slot then
            { p with tarn := p.tarn.commit [(keyPage r.slot, p.keyPageVal r.slot)] } else p
        | _, _ => p
      p.keyAnswer path r.slot 2
  else if op = 7 then
    if r.slot < 2 then p.keyAnswer path r.slot 0x12
    else if x.st = .invalid then p.keyAnswer path r.slot 0x17
    else if x.st = .empty then p.keyAnswer path r.slot 2
    else p.invalidate (some path) r.slot x.tag (p.descend 256 [r.slot])
  else
    let p := p.pwr path Reg.KEY_K_RES (BitVec.ofNat 32 (1 + 256 * r.slot))
    let p := { p with keys := { p.keys with queue := p.keys.queue ++ [r] } }
    Plane.keyPump p.keys.queue.length p

/-- ROOT.BANK and ROOT.ENROL_LEFT as the fuses stand (R351). -/
def Plane.showBank (p : Plane) : Plane := (p.wrF Reg.KEY_ROOT 19 18 p.keys.bank).wrF Reg.KEY_ROOT 22 20 (3 - p.keys.bank)

/-- Re-enrolment (R325). -/
def Plane.reenrol (p : Plane) : Plane :=
  let old := p.keys
  let pages := (old.slots.map fun e => keyPage e.1).foldl (fun d n => insertNat n d) []
  let p := old.queue.foldl (fun p r => p.keyAnswer r.path r.slot 0x18) p
  let p := { p with keys := { old with slots := [], queue := [], run := none, erase := [], bank := old.bank + 1, cert := false } }
  let p := { p with tarn := p.tarn.commitStore ((pages.map fun g => (g, PageVal.zero)) ++ [(15745, PageVal.helper true (old.bank + 1)), (15747, PageVal.zero)]) }
  p.showBank.closeSessions fun x => x.opened

/-- A write of ZERO by T0 (R325, R351). -/
def Plane.keyZero (p : Plane) (data : Word) : Plane :=
  if data = 0x5A31#32 then p.invalidate none 0 0 ((p.keys.slots.map Prod.fst))
  else if data = 0x5A32#32 ∧ p.keys.bank < 3 then p.reenrol
  else p.err Reg.KEY_PAGE

/-! ### Meanings -/

/-- KEY_OP_DONE (R331): the running GENERATE, DERIVE, IMPORT or VERIFY completes; a COMMIT completes with its store. -/
def execKeyOpDone (p : PlaneId) (s : State) : Host.Outcome State Fault Refusal :=
  .next (s.upd p Plane.keyDone)

/-- KEY_ERASE_DONE (R338). -/
def execKeyEraseDone (p : PlaneId) (s : State) : Host.Outcome State Fault Refusal :=
  .next (s.upd p Plane.eraseDone)

/-- ENTROPY_FAIL (R321). -/
def execEntropyFail (p : PlaneId) (s : State) : Host.Outcome State Fault Refusal :=
  .next (s.upd p fun x => ({ x with keys := { x.keys with entropyFail := true } }).wrF Reg.KEY_STAT 11 11 1)

/-- ENTROPY_RECOVERED (R321). -/
def execEntropyRecovered (p : PlaneId) (s : State) : Host.Outcome State Fault Refusal :=
  .next (s.upd p fun x => ({ x with keys := { x.keys with entropyFail := false } }).wrF Reg.KEY_STAT 11 11 0)

/-- WELLSPRING_HEALTH_CHECK (R324): a check value that differs raises a plane fault. -/
def execWellspringHealthCheck (p : PlaneId) (ok : Bool) (s : State) : Host.Outcome State Fault Refusal :=
  let s := s.upd p fun x => x.bkgDone 4 (x.bkgLate 4 s.now) s.now
  .next (if ok then s else (s.upd p fun x => x.evt Reg.KEY_EVT 11).planeFault p 2)

end Sys2Proof.Machine
end

