-- ==== Sys2Proof/Machine/Boot.lean ====
section
/-!
DEFINITION. The crypto engines, attestation and images (chapter 14): operations of C_OP, quotes and statements, loading and
verifying images, firmware slots and anti-rollback fuses.
-/
namespace Sys2Proof.Machine

/-! ### Firmware slots (R346) -/

/-- A firmware slot: 0 A, 1 B. -/
def BootSt.fw (b : BootSt) (k : Nat) : FwSlot := if k = 0 then b.fwA else b.fwB
def BootSt.setFw (b : BootSt) (k : Nat) (x : FwSlot) : BootSt := if k = 0 then { b with fwA := x } else { b with fwB := x }

/-- The firmware that runs. -/
def Plane.fw (p : Plane) : FwSlot := p.boot.fw p.boot.running

/-- Change the verifier's state. -/
def Plane.updBoot (p : Plane) (f : BootSt → BootSt) : Plane := { p with boot := f p.boot }

/-! ### Attestation (R348, R349) -/

/-- CFG_DIGEST: the applied configuration of every mirrored page from offset 0x040 and of every mirrored window. -/
def Plane.cfgDigest (p : Plane) : List Byte :=
  sm3 (((List.range 0x158).filter mirroredPage).flatMap fun g =>
    let first := if isWindow g then 0 else 16
    wordBytes ((List.range (1024 - first)).map fun k => p.cfg (g * 4096 + 4 * (first + k))))

/-- KEYS_DIGEST. -/
def Plane.keysDigest (p : Plane) : List Byte := sm3 ((List.range 256).flatMap p.keyDesc)

/-- PTP.SOURCE_ID. -/
def sourceId : List Byte := leBytes 4 (Config.fuse 0).toNat

/-- The first 224 bytes of a quote. -/
def Plane.quoteBody (p : Plane) (nonce : List Byte) (tag : Tag) (now : Nat) : List Byte :=
  [1, BitVec.ofNat 8 p.id.num, 0, 0] ++ sourceId ++ leBytes 8 now ++ leBytes 4 p.evr.cycles ++ leBytes 4 p.boot.fc ++
    slice nonce 0 32 ++ slice p.fw.digest 0 32 ++ leBytes 4 p.fw.version ++
    [BitVec.ofNat 8 p.fw.svn, BitVec.ofNat 8 (p.boot.running + 128 * (p.fw.st == .trial).toNat), 0, 0] ++
    leBytes 8 (p.rd64 Reg.SCAN_PROG_ID) ++ (match p.scan.prog with
      | some b => sm3 b
      | none => List.replicate 32 0) ++ leBytes 4 (p.rd Reg.SYS_CFG_EPOCH).toNat ++ [0, 0, 0, 0] ++ p.cfgDigest ++ p.keysDigest ++
    [BitVec.ofNat 8 (p.rdF Reg.CRYPTO_ATT 7 0), BitVec.ofNat 8 tag.toNat] ++ List.replicate 14 0

/-- The first 136 bytes of a key statement. -/
def Plane.statementBody (p : Plane) (slot : Nat) (nonce : List Byte) (now : Nat) : List Byte :=
  let x := p.keySlot slot
  [1, BitVec.ofNat 8 p.id.num, BitVec.ofNat 8 slot, 0] ++ sourceId ++ p.keyDesc slot ++ leBytes 8 now ++ slice nonce 0 32 ++
    (if x.type = 1 ∨ x.type = 2 then p.keyPublic slot else leBytes 3 x.kcv ++ List.replicate 61 0) ++
    leBytes 4 p.evr.cycles ++ [0, 0, 0, 0]

/-- An SM2 signature over a message by private material, with its Z (R340). -/
def Plane.signWith (p : Plane) (mat m : List Byte) : List Byte :=
  bytesOf (Config.sm2Sign mat (sm2Digest (publicOf 1 mat) m) p.nextDraw) 64

/-! ### Operations of C_OP (R340) -/

/-- The use bit an operation needs. -/
def opUse (op : Nat) : Nat := [0, 0, 7, 0, 1, 2, 3].getD op 0

/-- Whether R329 or R349 refuses an operation. -/
def Plane.cryptoRefused (p : Plane) (r : CryptoReq) : Bool :=
  let x := p.keySlot r.slot
  (2 ≤ r.op && r.op ≤ 6 && x.st != .empty && x.tag != r.access.toNat) ||
    (r.op == 9 && x.st != .empty && x.tag != r.access.toNat && r.access != 0)

/-- The material of the attestation slot, or the code for want of it (R338, R348). -/
def Plane.attKey (p : Plane) : Nat × List Byte :=
  let n := p.rdF Reg.CRYPTO_ATT 7 0
  if (p.keySlot n).st = .invalid then (0x17, [])
  else match p.activeKey n with
    | some mat => (0, mat)
    | none => (0x19, [])

/-- Begin an operation: the code it is answered at once, or the code and output it will deliver. (DEDUCED, unsafe: assumption 45.) -/
def Plane.cryptoBegin (p : Plane) (r : CryptoReq) (now : Nat) : Nat × Option (Nat × List Byte) :=
  let no (code : Nat) : Nat × Option (Nat × List Byte) := (code, none)
  let run (code : Nat) (out : List Byte) : Nat × Option (Nat × List Byte) := (0, some (code, out))
  let x := p.keySlot r.slot
  let n := r.input.length
  let fresh := r.op == 3 || r.op == 7 || r.op == 8 || r.op == 9 || (r.op == 5 && x.type == 2)
  if r.op = 0 ∨ r.op > 10 ∨ n > 1024 then no 0x10
  else if r.op = 1 then run 2 (sm3 r.input)
  else if r.op = 10 then (if p.keys.cert then run 2 ((Config.deviceCert p.id.num).take 1024) else run 5 [])
  else if fresh ∧ p.keys.entropyFail then no 0x1A
  else if r.op = 7 then (if n = 0 then no 0x10 else run 2 (bytesOf (Config.random p.nextDraw) n))
  else if r.op = 8 then
    match p.attKey with
    | (0, mat) =>
      if n ≠ 32 then no 0x10
      else
        let b := p.quoteBody r.input r.access now
        run 2 (b ++ p.signWith mat b)
    | (code, _) => no code
  else if x.st = .invalid then no 0x17
  else match p.activeKey r.slot with
    | none => no 0x19
    | some k =>
      if r.op = 9 then
        match p.attKey with
        | (0, mat) =>
          if n ≠ 32 then no 0x10
          else
            let b := p.statementBody r.slot r.input now
            run 2 (b ++ p.signWith mat b)
        | (code, _) => no code
      else if !x.use.testBit (opUse r.op) then no 0x10
      else if r.op = 2 then run 2 (hmacOf k r.input)
      else if r.op = 3 then
        if r.pre then (if n = 32 then run 2 (bytesOf (Config.sm2Sign k r.input p.nextDraw) 64) else no 0x10)
        else run 2 (p.signWith k r.input)
      else if r.op = 4 then
        if n < 64 ∨ (r.pre ∧ n ≠ 96) then no 0x10
        else
          let e := if r.pre then r.input.drop 64 else sm2Digest k (r.input.drop 64)
          run (if Config.sm2Verify k e (r.input.take 64) then 3 else 4) []
      else if r.op = 5 then
        if x.type = 3 then
          if n < 12 ∨ n > 1020 then no 0x10 else run 2 (gcmSeal (r.input.take 12) k [] (r.input.drop 12))
        else if n > 928 then no 0x10
        else run 2 (bytesOf (Config.sm2Enc k r.input p.nextDraw) (96 + n))
      else if x.type = 3 then
        if n < 28 then no 0x10
        else match gcmOpen (r.input.take 12) k [] (r.input.drop 12) with
          | some t => run 2 t
          | none => run 4 []
      else if n < 96 then no 0x10
      else if Config.sm2DecOk k r.input then run 2 (bytesOf (Config.sm2Plain k r.input) (n - 96)) else run 4 []

/-- Answer an operation on its path. -/
def Plane.cryptoAnswer (p : Plane) (path code len : Nat) : Plane :=
  (p.pwr path Reg.CRYPTO_C_RES (BitVec.ofNat 32 (code + 65536 * len))).evt Reg.CRYPTO_EVT 8

/-- Start waiting operations until one runs or none is left. (DESIGN CHOICE, unsafe: assumption 46.) -/
def Plane.cryptoPump (now : Nat) : Nat → Plane → Plane
  | 0, p => p
  | n + 1, p =>
    match p.crypto.run, p.crypto.queue with
    | none, r :: rest =>
      match p.cryptoBegin r now with
      | (_, some x) => { p.drawn with crypto := { p.crypto with run := some x } }
      | (code, none) =>
        Plane.cryptoPump now n (({ p with crypto := { p.crypto with queue := rest } }).cryptoAnswer r.path code 0)
    | _, _ => p

/-- The running operation completes: its output and its result (R340). -/
def Plane.cryptoDone (p : Plane) (now : Nat) : Plane :=
  match p.crypto.run, p.crypto.queue with
  | some (code, out), r :: rest =>
    let p := p.pfill r.path (Reg.CRYPTO_OUT 0) 256 out
    let p := (p.cryptoAnswer r.path code out.length).bump Reg.CRYPTO_OP_CNT 15 0
    Plane.cryptoPump now rest.length { p with crypto := { queue := rest, run := none } }
  | _, _ => p

/-- A write of C_OP (R340). -/
def Plane.cryptoOp (p : Plane) (path : Nat) (access : Tag) (data : Word) (now : Nat) : Plane :=
  let op := fld data 3 0
  let len := p.prdF path Reg.CRYPTO_C_LEN 10 0
  let r : CryptoReq := { path := path, access := access, op := op, slot := fld data 15 8, pre := bit data 16,
                         input := p.pbytes path (Reg.CRYPTO_IN 0) len }
  if op = 0 then p
  else if p.prdF path Reg.CRYPTO_C_RES 7 0 = 1 then p.err Reg.CRYPTO_PAGE
  else if p.cryptoRefused r then
    let t := (p.keySlot r.slot).tag
    (p.violate path access true (if 1 ≤ t ∧ t ≤ 62 then 3 else 4) Reg.CRYPTO_C_OP now).cryptoAnswer path 0x1C 0
  else
    let p := p.pwr path Reg.CRYPTO_C_RES 1
    let p := { p with crypto := { p.crypto with queue := p.crypto.queue ++ [r] } }
    Plane.cryptoPump now p.crypto.queue.length p

/-- CRYPTO_OP_DONE (R340). -/
def execCryptoOpDone (p : PlaneId) (s : State) : Host.Outcome State Fault Refusal :=
  .next (s.upd p fun x => x.cryptoDone s.now)

/-! ### Images (R343 to R345) -/

/-- Show a load's result. -/
def Plane.imgResult (p : Plane) (code : Nat) : Plane := p.wrF Reg.BOOT_IMG_STAT 7 0 code

/-- End a load with a result. -/
def Plane.imgEnd (p : Plane) (code : Nat) : Plane := ((p.updBoot fun b => { b with load := none }).imgResult code).wrF Reg.BOOT_STAT 1 1 0

/-- The result of verifying an image (R344): 3 VERIFIED or the first check that fails. -/
def Plane.imgCheck (p : Plane) (program : Bool) (b : List Byte) : Nat :=
  let n (o k : Nat) : Nat := ofLe (slice b o k)
  let bodyLen := n 16 4
  let body := (b.drop 128).take bodyLen
  let keyId := n 5 1
  let slot := p.rdF Reg.BOOT_PROG_KEY 7 0
  let x := p.keySlot slot
  let key : Option (List Byte) :=
    if program then (if x.type = 2 ∧ x.use.testBit 1 ∧ x.tag = 0 then p.activeKey slot else none)
    else if keyId < 4 ∧ !p.boot.revoked.getLsbD keyId then some (bytesOf (Config.fuseKey keyId) 64) else none
  if b.length < 128 ∨ slice b 0 4 ≠ [0x4B, 0x56, 0x58, 0x01] ∨ n 4 1 ≠ (if program then 2 else 1) ∨ n 6 2 ≠ 0 ∨ n 14 2 ≠ 0 ∨
      n 20 12 ≠ 0 ∨ n 12 1 > 64 ∨ (program ∧ (keyId ≠ 0 ∨ n 12 2 ≠ 0)) ∨ 128 + (bodyLen + 3) / 4 * 4 ≠ b.length then 0x11
  else if bodyLen > (if program then 1114752 else 16777088) then 0x12
  else if sm3 body ≠ slice b 32 32 then 0x13
  else match key with
    | none => 0x15
    | some k =>
      if !Config.sm2Verify k (sm2Digest k (b.take 64)) (slice b 64 64) then 0x14
      else if !program && n 12 1 < p.boot.fc then 0x16
      else 3

/-- Tarn pages of the installed program, the staged image and the Scan Engine's areas (R197, R214), each an object of two copies (R358). -/
def progPage : Nat := 14336
def stagedPage : Nat := 14337
def areaPage : Nat := 14339

/-- Stage a program body (R197). -/
def Plane.stageImage (p : Plane) (body : List Byte) : Plane :=
  { p with scan := { p.scan with staged := some body },
           tarn := p.tarn.commitObj stagedPage (.program body []) true }

/-- A write of IMG_CTRL (R344, R353): ABORT, START or FINISH. (DEDUCED, unsafe: assumption 45.) -/
def Plane.imgCtrl (p : Plane) (path : Nat) (data : Word) (now : Nat) : Plane :=
  let mine : Bool := match p.boot.load with
    | some l => l.path == path && !l.verifying
    | none => false
  if bit data 2 then (if mine then p.imgEnd 0 else p.err Reg.BOOT_PAGE)
  else if bit data 0 then
    if (p.boot.load.isSome ∧ !mine) ∨ p.fw.st = .trial then p.imgResult 0x10
    else
      let p := p.updBoot fun b => { b with load := some { path := path, program := bit data 8, lastTt := p.tt now } }
      (((p.imgResult 1).wrF Reg.BOOT_IMG_STAT 11 8 path).wr Reg.BOOT_IMG_LEN 0).wrF Reg.BOOT_STAT 1 1 1
  else if bit data 1 then
    match p.boot.load with
    | some l => if mine then (p.updBoot fun b => { b with load := some { l with verifying := true } }).imgResult 2
        else p.err Reg.BOOT_PAGE
    | none => p.err Reg.BOOT_PAGE
  else p

/-- A write of IMG_DATA (R353). -/
def Plane.imgWord (p : Plane) (path : Nat) (data : Word) (now : Nat) : Plane :=
  match p.boot.load with
  | some l =>
    if l.path = path ∧ !l.verifying then
      let l : ImgLoad := { l with bytes := l.bytes ++ leBytes 4 data.toNat, lastTt := p.tt now }
      (p.updBoot fun b => { b with load := some l }).wr Reg.BOOT_IMG_LEN (BitVec.ofNat 32 (min (2 ^ 25 - 1) l.bytes.length))
    else p.err Reg.BOOT_PAGE
  | none => p.err Reg.BOOT_PAGE

/-- A write of FW_CTRL (R346, R347). `t0` says that the writer is T0. -/
def Plane.fwCtrl (p : Plane) (t0 : Bool) (data : Word) : Plane :=
  let act (p : Plane) : Plane :=
    if !bit data 0 then p
    else if p.boot.fwA.st = .valid then p.updBoot fun b => { b with fwA := { b.fwA with st := .next } }
    else if p.boot.fwB.st = .valid then p.updBoot fun b => { b with fwB := { b.fwB with st := .next } }
    else p.err Reg.BOOT_PAGE
  let conf (p : Plane) : Plane :=
    if !bit data 1 then p
    else if p.fw.st = .trial then
      p.updBoot fun b =>
        let o := 1 - b.running
        let b := b.setFw b.running { b.fw b.running with st := .confirmed }
        if (b.fw o).st = .confirmed then b.setFw o { b.fw o with st := .valid } else b
    else p.err Reg.BOOT_PAGE
  let adv (p : Plane) : Plane :=
    if !bit data 2 ∨ !t0 then p
    else if p.fw.st = .confirmed then
      p.updBoot fun b =>
        let x := b.fw b.running
        { b with fc := max b.fc x.svn, revoked := b.revoked ||| BitVec.ofNat 4 (2 ^ min 4 x.keyId - 1) }
    else p.err Reg.BOOT_PAGE
  adv (conf (act p))

/-- IMG_VERIFY_DONE (R344, R345): a verified firmware image fills the slot that does not run; a verified program goes to the standby
in step, or is staged by the active plane alone. -/
def execImgVerifyDone (p : PlaneId) (s : State) : Host.Outcome State Fault Refusal :=
  let x := s.plane p
  .next (match x.boot.load with
    | none => s
    | some l =>
      if !l.verifying ∨ x.boot.peer.isSome then s
      else
        let code := x.imgCheck l.program l.bytes
        let n (o k : Nat) : Nat := ofLe (slice l.bytes o k)
        if code ≠ 3 then s.upd p fun x => (x.imgEnd code).evt Reg.BOOT_EVT 8
        else if !l.program then
          s.upd p fun x =>
            let x := x.updBoot fun b => b.setFw (1 - b.running)
              { st := .valid, svn := n 12 1, step := n 13 1, version := n 8 4, keyId := n 5 1, digest := slice l.bytes 32 32 }
            (x.imgEnd 3).evt Reg.BOOT_EVT 8
        else if x.isActive ∧ s.inStep p then s.upd p fun x => x.updBoot fun b => { b with peer := some l.bytes }
        else s.upd p fun x =>
          let x := if x.isActive then x.stageImage ((l.bytes.drop 128).take (n 16 4)) else x
          (x.imgEnd 3).evt Reg.BOOT_EVT 8)

/-- IMG_TIMEOUT (R344): 10 s without data end a load. -/
def execImgTimeout (p : PlaneId) (s : State) : Host.Outcome State Fault Refusal :=
  .next (s.upd p fun x => match x.boot.load with
    | some l => if !l.verifying ∧ l.lastTt + 10000000000 ≤ x.tt s.now then x.imgEnd 0x17 else x
    | none => x)

/-- PEER (R345): the standby verifies a program image with its own PROG_KEY; a pass stages it on both planes. -/
def execPeer (p : PlaneId) (s : State) : Host.Outcome State Fault Refusal :=
  .next (match (s.plane p).boot.peer with
    | none => s
    | some bytes =>
      let pass := (s.plane p.other).imgCheck true bytes == 3
      let body := (bytes.drop 128).take (ofLe (slice bytes 16 4))
      let s := if pass then s.updBoth fun x => x.stageImage body else s
      s.upd p fun x => ((x.updBoot fun b => { b with peer := none }).imgEnd (if pass then 3 else 0x18)).evt Reg.BOOT_EVT 8)

/-- A TRIAL slot is rejected (R346), with the cause of its record: 0 restart, 1 READY timeout, 2 verification. -/
def Plane.rejectSlot (p : Plane) (k cause : Nat) : Plane :=
  let x := p.boot.fw k
  let p := p.updBoot fun b => b.setFw k { x with st := .rejected }
  (p.evt Reg.BOOT_EVT 9).stage 0x4A 0 3 ([BitVec.ofNat 8 k, BitVec.ofNat 8 cause, 0, 0] ++ leBytes 4 x.version)

/-- TRIAL_FAIL (R346): a TRIAL slot has not reached READY within 120 s of the start that booted it; the other, CONFIRMED slot is booted. -/
def execTrialFail (p : PlaneId) (s : State) : Host.Outcome State Fault Refusal :=
  .next (s.upd p fun x =>
    if !x.running ∧ x.phase ≠ .unpowered ∧ x.fw.st = .trial then
      let k := x.boot.running
      let x := x.rejectSlot k 1
      { x.updBoot fun b => { b with running := if (b.fw (1 - k)).st == .confirmed then 1 - k else b.running } with phase := .starting }
    else x)

end Sys2Proof.Machine
end

