-- ==== Sys2Proof/Machine/Mains.lean ====
section
/-!
DEFINITION. The mains time base (chapter 3): cycles and P(c), the MPE's states, the Supply Loss Warning, the PTP servo, the
cycle announcement, adoption, trimming and the forward step.
-/
namespace Sys2Proof.Machine

/-- Change a plane's MPE. -/
def Plane.updMpe (p : Plane) (f : MpeSt → MpeSt) : Plane := { p with mpe := f p.mpe }

/-- A fraction rounded to the nearest integer. (DESIGN CHOICE, unsafe: assumption 56.) -/
def roundDiv (a : Int) (b : Nat) : Int := (2 * a + b) / (2 * b)

/-- Mean of periods. -/
def meanOf (l : List Nat) (d : Nat) : Nat := if l = [] then d else l.sum / l.length

/-! ### What the MPE keeps of each phase (R72, R77, R78) -/

/-- What the MPE keeps of phase L1 to L3 by number. -/
def MpeSt.phase (m : MpeSt) (k : Nat) : PhaseTrk := m.trk.getD k {}

/-- How far tick `x` of a cycle lies after tick `y`, the short way round. -/
def tickDiff (x y : Nat) : Int := ((x : Int) - y + 2048) % 4096 - 2048

/-- The mean of ticks within a cycle, taken round the cycle from the newest. -/
def meanTick : List Nat → Option Nat
  | [] => none
  | x :: r => some ((((x : Int) + (r.map fun y => tickDiff y x).sum / (r.length + 1)) % 4096).toNat)

/-- The ticks of the cycle at which a phase's rising and falling crossings are expected: the means over the cycles learned from (R77). -/
def PhaseTrk.expected (x : PhaseTrk) : List Nat := (meanTick (x.learned.map Prod.fst)).toList ++ (meanTick (x.learned.map Prod.snd)).toList

/-- Whether the envelope RMS √((v² + w²) / 2) of samples in 64 µV lies below `pct` % of `nom` V (R78). -/
def envelopeBelow (v w : Int) (pct nom : Nat) : Bool := decide ((v * v + w * w).toNat * 4096 < 2 * (pct * nom) ^ 2 * 100000000)

/-- The judgement made of a phase at tick `now`, from the sample of the tick before it (R77, R78): `hist` are its samples, newest first. A
crossing is judged missed 257 ticks after its expected tick, where the last change of sign lies before its window. (DESIGN CHOICE, unsafe: assumption 55.) -/
def PhaseTrk.judge (x : PhaseTrk) (hist : List Int) (nom now : Nat) : PhaseTrk :=
  let v := hist.headD 0
  let high := decide (0 ≤ v)
  let up := if high ∧ !x.high then 1 else x.up + 1
  let down := if !high ∧ x.high then 1 else x.down + 1
  let span := if high ∧ !x.high then x.up else x.span
  let low (pct : Nat) : Bool := match hist[1024]? with
    | some w => envelopeBelow v w pct nom
    | none => false
  let due := x.expected.filter fun e => (tickOf now + 8192 - e - 257) % 4096 == 0
  let gone := due != [] && decide (513 < min up down)
  { x with high := high, up := up, down := down, span := span, low70 := if low 70 then x.low70 + 1 else 0,
           low20 := if low 20 then x.low20 + 1 else 0, missed := if due = [] then x.missed else if gone then x.missed + 1 else 0,
           seen := true, fine := x.fine && !low 80 && !gone, run := if low 80 || gone then 0 else x.run }

/-- A plane judges its phases at a tick, from the samples of the tick before (R78). (DESIGN CHOICE, unsafe: assumption 55.) -/
def Plane.judgeSamples (p : Plane) (now : Nat) : Plane :=
  let came := p.meter.got.contains 0x10
  let p := { p with meter := { p.meter with got := [] } }
  if !came then p
  else
    let trk := (List.range 3).map fun k => (p.mpe.phase k).judge (p.meter.vHist.getD k []) (p.cfgF Reg.MPE_CFG 24 16) now
    let g (k : Nat) : Bool := decide (8 ≤ (trk.getD k {}).run)
    p.updMpe fun m => { m with trk := trk, phGood := BitVec.ofNat 3 ((g 0).toNat + 2 * (g 1).toNat + 4 * (g 2).toNat) }

/-- The frequency of a phase over its last cycle, in mHz: measured on the fundamental for L1, from its rising crossings for L2 and L3. -/
def MpeSt.phaseFreq (m : MpeSt) (k freq : Nat) : Nat :=
  if k = 0 then freq else 16000000000000 * 4096 / max 1 ((m.phase k).span * m.per)

/-- Whether a frequency in mHz lies within 45 Hz to 66 Hz. -/
def freqOk (f : Nat) : Bool := decide (45000 ≤ f) && decide (f ≤ 66000)

/-- The tick of the cycle that ends at which a change of sign lies, `age` ticks before its end. -/
def tickBack (age : Nat) : Nat := (8192 - age % 4096) % 4096

/-- A phase at the end of a cycle (R72, R77): a good cycle counts, another restarts the count, and the crossings of a cycle in which L1 was good are
learned, for L2 and L3 where both lie within 256 ticks of those expected. (DESIGN CHOICE, unsafe: assumption 55.) -/
def PhaseTrk.endCycle (x : PhaseTrk) (l1 strict : Bool) (freq : Nat) : PhaseTrk :=
  if !x.seen then x
  else
    let got := (tickBack x.up, tickBack x.down)
    let near (e t : Nat) : Bool := decide ((tickDiff t e).natAbs ≤ 256)
    let fits := decide (x.up ≤ 4352) && decide (x.down ≤ 4352) && (match strict, x.expected with
      | true, [e, f] => near e got.1 && near f got.2
      | _, _ => true)
    { x with run := if x.fine && freqOk freq then x.run + 1 else 0, seen := false, fine := true,
             learned := if l1 && fits then (got :: x.learned).take 16 else x.learned }

/-- The rate of change of frequency over the last four cycles is above 2 Hz/s (R72), from frequencies in mHz and periods in 1/16 ns. -/
def tooFast (l : List (Nat × Nat)) : Bool :=
  match l with
  | [a, b, c, d, e] => decide (2000 * (a.2 + b.2 + c.2 + d.2) < ((a.1 : Int) - e.1).natAbs * 16000000000)
  | _ => false

/-- The signed phase error in 1/256 tick: how far the crossing lies after tick PHASE_OFS / 256 + TRIM / 256 (R71). -/
def Plane.phaseError (p : Plane) (cross : Nat) : Int :=
  sext 20 (toTwos 20 ((cross : Int) - p.cfgF Reg.MPE_PHASE_OFS 19 0 - p.mpe.trim))

/-- In phase: within 2 ticks (R72). -/
def inPhase (err : Int) : Bool := decide (err.natAbs ≤ 512)

/-- The MPE at the end of a cycle: the phases, the measurements, and the count of whole cycles towards the next state (R72 to R74). -/
def Plane.endCycle (p : Plane) (m : CycleMeas) : Plane :=
  let x := p.mpe
  let was := (x.phase 0).run
  let trk0 := (x.phase 0).endCycle ((x.phase 0).fine && freqOk m.freq) false m.freq
  let l1 := (x.phase 0).seen && decide (was < trk0.run)
  let trk := trk0 :: [1, 2].map fun k => (x.phase k).endCycle l1 true (x.phaseFreq k m.freq)
  let g (k : Nat) : Bool := decide (8 ≤ (trk.getD k {}).run)
  let err := p.phaseError m.cross
  let meas := ((m.freq, m.period) :: x.meas).take 5
  let meets := match x.st with
    | .acquire => l1 && inPhase err
    | .flywheel => l1
    | _ => inPhase err
  p.updMpe fun x => { x with
    trk := trk, phGood := BitVec.ofNat 3 ((g 0).toNat + 2 * (g 1).toNat + 4 * (g 2).toNat), err := err, meas := meas, fast := tooFast meas,
    goods := if l1 && x.st != .flywheel then (m.period :: x.goods).take 16 else x.goods,
    fresh := false, runs := if x.fresh then 0 else if meets then x.runs + 1 else 0 }

/-- L1 is disturbed (R72). The phase error counts in LOCKED, where the MPE holds the phase; RELOCK removes an error of any size (R74). (DESIGN CHOICE, unsafe: assumption 55.) -/
def Plane.l1Disturbed (p : Plane) : Bool :=
  let x := p.mpe.phase 0
  decide (1024 ≤ x.low20) || decide (2 ≤ x.missed) || (p.mpe.meas.head?.any fun m => !freqOk m.1) || p.mpe.fast ||
    (p.mpe.st == .locked && decide (65536 < p.mpe.err.natAbs))

/-- Whether a phase is monitored (R77). -/
def Plane.monitored (p : Plane) (k : Nat) : Bool := k == 0 || bit (p.cfg Reg.MPE_CFG) k

/-- The Supply Loss Warning is due: on a monitored phase, two expected crossings missed or the envelope low for a quarter-cycle (R78). -/
def Plane.slwDue (p : Plane) : Bool :=
  (List.range 3).any fun k => p.monitored k && (decide (2 ≤ (p.mpe.phase k).missed) || decide (1024 ≤ (p.mpe.phase k).low70))

/-- Every monitored phase meets the good condition (R80). -/
def Plane.mainsGood (p : Plane) : Bool := (List.range 3).all fun k => !p.monitored k || p.mpe.phGood.getLsbD k

/-! ### P(c) (R69 to R74, R87) -/

/-- P(c) keeps every tick between 3.66 µs and 5.48 µs (R69). -/
def clampPer (v : Nat) : Nat := max 239861760 (min 359137280 v)

/-- A period with `e` 1/256 ticks of phase put into its cycle. -/
def slewed (per : Nat) (e : Int) : Nat := ((per : Int) + e * per / 1048576).toNat

/-- P(c) in 1/16 ns for the cycle that begins, as this plane computes it (R70, R73, R74): a positive phase error makes the cycle longer, and the trim's
next move shortens it by as much (R87). (DESIGN CHOICE, safe: assumption 14.) (DEDUCED, unsafe: assumption 28.) -/
def Plane.nextPeriod (p : Plane) : Nat :=
  let x := p.mpe
  let period := (x.meas.headD (50000, x.last)).2
  let e := clampI (-10485) 10485 x.err
  clampPer (slewed (match x.st with
    | .acquire => if bit (p.cfg Reg.MPE_CFG) 8 then 266666667 else 320000000
    | .locked => Config.lockedPeriod (fld (p.cfg Reg.MPE_CFG) 13 12) period x.err x.last
    | .flywheel => meanOf x.goods x.last
    | .relock => if inPhase x.err then period else slewed period e) (-x.trimStep))

/-- The trim's move over the cycle that begins (R87): towards the target by at most 1/16 tick, while the target is followed. -/
def Plane.nextTrim (p : Plane) : Int :=
  let x := p.mpe
  if x.cyc = .adopted ∧ bit (p.cfg Reg.PTP_CYC_CFG) 8 ∧ x.sync = 2 then clampI (-16) 16 (x.trimTarget - x.trim) else 0

/-- Enter a state of the MPE at a stamp: the count of whole cycles begins with the first whole cycle in it (R73, R74). -/
def Plane.enterMpe (p : Plane) (st : MpeState) (now : Nat) : Plane :=
  p.updMpe fun m => { m with st := st, runs := 0, fresh := tickOf now != 0 }

/-- A running plane computes its P(c); one still starting has the generator's. -/
def Plane.steer (p : Plane) (per : Nat) : Plane :=
  if p.phase = .unpowered then p else p.updMpe fun m => { m with own := if p.running then p.nextPeriod else per }

/-- A powered plane takes up the P(c) in force, which MPE.PERIOD shows (R75). -/
def Plane.takePeriod (p : Plane) (per : Nat) : Plane :=
  if p.phase = .unpowered then p
  else
    let p := (p.updMpe fun m => { m with per := per }).wr Reg.MPE_PERIOD (BitVec.ofNat 32 per)
    if p.mpe.st = .flywheel then p.wr Reg.MPE_FREQ (BitVec.ofNat 32 (16000000000000 / max 1 per % 131072)) else p

/-- Whether a data path has started in either plane (R69, R86). -/
def State.dataPathStarted (s : State) : Bool := s.a.dataPath || s.b.dataPath

/-- At tick 0 the generator takes the P(c) of the plane that holds the lease; in a lease gap it keeps the one last applied, and before any data path has
started it follows the plane whose time base leads (R68, R70). (DESIGN CHOICE, unsafe: assumption 55.) -/
def State.fixPeriod (s : State) : State :=
  if s.now % 4096 ≠ 0 then s
  else
    let a := s.a.steer s.fs.per
    let b := s.b.steer s.fs.per
    let of (i : PlaneId) : Nat := if (s.plane i).running then (s.plane i).nextPeriod else s.fs.per
    let per := match s.fs.au.holder with
      | some i => of i
      | none => if s.dataPathStarted then s.fs.per else of s.lead
    { s with a := a.takePeriod per, b := b.takePeriod per, fs := { s.fs with per := per } }

/-- The nominal frequency in Hz. -/
def Plane.nomF (p : Plane) : Nat := if bit (p.cfg Reg.MPE_CFG) 8 then 60 else 50

/-- The Tarn page of the power-cycle count, operating time and high-water mark. -/
def countPage : Nat := 14591

/-- The counts as Tarn keeps them (R85, R369). -/
def Plane.countsVal (p : Plane) : PageVal := .counts p.evr.cycles p.evr.optime p.mpe.hwm p.mpe.hwmSecs

/-- The high-water mark is written at every cycle whose number is a multiple of 4,096 (R85). -/
def Plane.markCycle (p : Plane) (cycle : Nat) : Plane :=
  if cycle % 4096 = 0 ∧ p.phase ≠ .unpowered then
    let p := p.updMpe fun x => { x with hwm := cycle, hwmSecs := p.rtc.secs }
    { p with tarn := p.tarn.commit [(countPage, p.countsVal)] }
  else p

/-- Tick 0 of a cycle in a plane: true time, the judgement of the cycle that ends, the trim, the values of the last cycle and the high-water mark. -/
def Plane.cycleStart (p : Plane) (m : CycleMeas) (cycle : Nat) : Plane :=
  if (p.mpe.hist.head?.map TickRec.cycle) = some cycle then p
  else
    let p := p.updMpe fun x => { x with
      tt16 := if x.ttCycle = cycle then x.tt16 else x.tt16 + x.per, ttCycle := cycle, last := x.per, trim := x.trim + x.trimStep }
    let p := p.updMpe fun x => { x with trimStep := p.nextTrim, hist := ({ cycle := cycle, ptp := m.ptp, trim := x.trim } :: x.hist).take 128 }
    let p := p.endCycle m
    let tt := p.mpe.tt16
    let p := ((p.wr Reg.MPE_FREQ (BitVec.ofNat 32 (m.freq % 131072))).wr Reg.MPE_PHASE_ERR (BitVec.ofNat 32 (toTwos 20 p.mpe.err))).wr64
      Reg.MPE_TT (tt / 16)
    let p := p.wr Reg.PTP_TRIM (BitVec.ofNat 32 (toTwos 16 p.mpe.trim))
    let p := if p.running ∧ p.acct.running then p.cycleValues cycle else p
    -- metering starts at the first tick 0 after the data path (R180)
    let p := if p.running ∧ p.dataPath ∧ !p.acct.running then
        let c (r : List Nat) : Tab Int := r.foldl (fun t r => Tab.put (fun _ => 0) t r (p.meter.count r)) []
        { p with pulses := (List.range 8).foldl (fun t n => Tab.put (fun _ => {}) t n
                   { (Tab.get (fun _ => {}) t n : PulseSt) with last := p.meter.count (fld (p.cfg (Reg.PULSE_PO_CFG n)) 31 16) }) p.pulses,
                 acct := { p.acct with running := true, org := tt / 16, idx := 0, snapTt := tt / 16 },
                 meter := { p.meter with whole := c [0x4002, 0x4003, 0x4004, 0x4005, 0x4007], bound := c riseRegs, half := [], portAcc := [], intAcc := 0 } }
      else p
    p.markCycle cycle

/-- The lowest RMS voltage, in V, among the phases of the supply mode (R157). -/
def State.vminNow (s : State) : Nat :=
  let p := s.plane s.lead
  let v (k : Nat) : Nat := (Tab.get (fun _ => 0) p.meter.vals (16 * k + 8)).toNat / 1000000
  let mode := s.supplyMode
  let l := if mode = 1 then [0] else (List.range 3).filter fun k => mode != 2 || p.mpe.phGood.getLsbD k
  (l.map v).foldl min (v (l.headD 0))

/-- TIME_VALID, once the state has been LOCKED and the numbering is settled (R86). -/
def Plane.checkValid (p : Plane) (now : Nat) : Plane :=
  if p.mpe.timeValid ∨ p.mpe.lockedTt.isNone ∨ p.mpe.cyc = .none then p
  else { p.updMpe fun x => { x with timeValid := true } with red.validAt := some now, start.validTt := some (p.tt now) }

/-- The numbering a plane takes as it becomes LOCKED: a source its own, and with PTP disabled its own too (R86, R93). (DEDUCED, unsafe: assumption 29.) (DESIGN CHOICE, unsafe: assumption 56.) -/
def Plane.lockNumbering (p : Plane) : Plane :=
  if p.mpe.cyc ≠ .none then p
  else if bit (p.cfg Reg.PTP_CYC_CFG) 0 then p.updMpe fun x => { x with cyc := .source }
  else if !bit (p.cfg Reg.PTP_CTRL) 0 then p.updMpe fun x => { x with cyc := .standalone }
  else p

/-- Shift every stamp that the machine holds of things still to come by whole cycles. -/
def State.shiftCycles (s : State) (d : Int) : State :=
  let sh (t : Nat) : Nat := (t + d * 4096).toNat
  let fix (p : Plane) : Plane :=
    let p := p.updMpe fun x => { x with
      ttCycle := (x.ttCycle + d).toNat, hist := x.hist.map fun r => { r with cycle := (r.cycle + d).toNat } }
    p.updRed fun r => { r with
      lastRenewed := sh r.lastRenewed, lastFrame := sh r.lastFrame, lostAt := r.lostAt.map sh, validAt := r.validAt.map sh,
      leaveAt := r.leaveAt.map sh, yield_ := r.yield_.map sh, joinCut := r.joinCut.map sh }
  { s with now := sh s.now, a := fix s.a, b := fix s.b,
           fs := { s.fs with due := s.fs.due.map fun e => (sh e.1, e.2),
                             au := { s.fs.au with expiry := sh s.fs.au.expiry, oldExpiry := sh s.fs.au.oldExpiry,
                                                  guardEnd := s.fs.au.guardEnd.map sh, vacantSince := sh s.fs.au.vacantSince,
                                                  claimAt := sh s.fs.au.claimAt } } }

/-! ### Meanings: cycles and the MPE -/

/-- CYCLE_START (R69, R70, R84, R87, R90): tick 0 of a cycle, with what was measured of the mains. Between tick 0s it only brings the
field side the measurement that the next tick 0 takes. -/
def execCycleStart (m : CycleMeas) (s : State) : Host.Outcome State Fault Refusal :=
  let s := s.field fun f => { f with meas := m }
  .next (if s.now % 4096 = 0 then
    let go (p : Plane) : Plane := if p.phase = .unpowered then p else p.cycleStart m (cycleOf s.now)
    let s := ({ s with a := go s.a, b := go s.b } : State).fixPeriod
    s.field fun f => { f with power := { f.power with vmin := s.vminNow } }
  else s)

/-- LOCK_ACQUIRED (R73, R86): L1 good and in phase for 16 whole cycles. -/
def execLockAcquired (p : PlaneId) (s : State) : Host.Outcome State Fault Refusal :=
  .next ((s.upd p fun x =>
    if x.running ∧ x.mpe.st = .acquire ∧ 16 ≤ x.mpe.runs then
      let x := (((x.enterMpe .locked s.now).updMpe fun m => { m with lockedTt := some (x.tt s.now) })).evt Reg.MPE_EVT 8
      x.lockNumbering.checkValid s.now
    else x).fixPeriod)

/-- L1_DISTURBED (R73): LOCKED and RELOCK fall to FLYWHEEL, with P(c) held at the mean of the last good cycles from the next tick 0. -/
def execL1Disturbed (s : State) : Host.Outcome State Fault Refusal :=
  .next ((s.updBoth fun x =>
    if (x.mpe.st = .locked ∨ x.mpe.st = .relock) ∧ x.l1Disturbed then
      ((x.enterMpe .flywheel s.now).bump Reg.MPE_FLY_CNT 15 0).evt Reg.MPE_EVT 9
    else x).fixPeriod)

/-- Enter RELOCK (R73, R74). -/
def Plane.relock (p : Plane) (now : Nat) : Plane := (p.enterMpe .relock now).evt Reg.MPE_EVT 10

/-- L1_GOOD (R73): L1 meets the good condition, with eight good cycles in FLYWHEEL. (DESIGN CHOICE, unsafe: assumption 55.) -/
def execL1Good (s : State) : Host.Outcome State Fault Refusal :=
  .next ((s.updBoth fun x =>
    if x.mpe.st = .flywheel ∧ x.mpe.phGood.getLsbD 0 ∧ 8 ≤ x.mpe.runs then x.relock s.now else x).fixPeriod)

/-- RELOCK_DONE (R74): in phase for four whole cycles. -/
def execRelockDone (s : State) : Host.Outcome State Fault Refusal :=
  .next ((s.updBoth fun x =>
    if x.mpe.st = .relock ∧ 4 ≤ x.mpe.runs then (x.enterMpe .locked s.now).evt Reg.MPE_EVT 8 else x).fixPeriod)

/-- STEER_DIFF (R70): the standby receives the active plane's P(c) over the sync link and counts where its own differs; the active plane's value
stays in force. -/
def execSteerDiff (period : Nat) (s : State) : Host.Outcome State Fault Refusal :=
  .next (match s.active? with
    | none => s
    | some i => s.upd i.other fun x =>
      if x.running ∧ x.red.role = .standby ∧ x.red.syncUp ∧ x.mpe.own ≠ period then (x.bump Reg.MPE_STEER_CNT 15 0).evt Reg.MPE_EVT 13
      else x)

/-- SUPPLY_LOSS_WARNING (R78, R79, R160): SLW is raised in both planes and ride-through starts; with the hold-up store faulted it
ends at once (R435). -/
def execSupplyLossWarning (s : State) : Host.Outcome State Fault Refusal :=
  .next (if s.fs.power.slw ∨ !(s.a.running && s.a.slwDue || s.b.running && s.b.slwDue) then s
    else
      let rating := supplyRating s.supplyMode s.fs.power.vmin
      let weak := (s.plane s.lead).rdF Reg.FAULT_FIELD_FLT 12 12 == 1
      let s' := s.updBoth fun x =>
        (((x.updMpe fun m => { m with slw := true }).wr64 Reg.MPE_SLW_AT s.now).bump Reg.MPE_SLW_CNT 15 0).evt Reg.MPE_EVT 11
      if s.fs.power.shed then
        s'.field fun f => { f with power := { f.power with slw := true, slwAt := s.now, slwTt := s.ttNow, okTt := none } }
      else
        (s'.field fun f => { f with power := { f.power with slw := true, slwAt := s.now, slwTt := s.ttNow, okTt := none,
                                                            ride := !weak, rideEnd := if weak then some s.now else none,
                                                            frozen := if weak then none else some rating } }).updBoth
          fun x => x.evt Reg.PWR_EVT 8)

/-- MAINS_OK (R80): with every monitored phase good SLW clears, and with it ride-through. -/
def execMainsOk (s : State) : Host.Outcome State Fault Refusal :=
  .next (if s.fs.power.slw ∧ (s.plane s.lead).mainsGood then
    (s.updBoth fun x => ((x.updMpe fun m => { m with slw := false }).wr64 Reg.MPE_OK_AT s.now).evt Reg.MPE_EVT 12).field fun f =>
      { f with power := { f.power with slw := false, okTt := some s.ttNow, ride := false, rideEnd := none, frozen := none, partial_ := false } }
  else s)

/-! ### The PTP servo (R81) -/

/-- SYNC falls or is set, with EVT.SYNC_LOST where it falls from 2. -/
def Plane.setSync (p : Plane) (v run : Nat) : Plane :=
  let was := p.mpe.sync
  let p := p.updMpe fun m => { m with sync := v, syncRun := run }
  if was = 2 ∧ v ≠ 2 then p.evt Reg.PTP_EVT 8 else p

/-- The uplink in the time-receiver state: the best rank heard, the lowest uplink among equals. -/
def MpeSt.receiver (m : MpeSt) : Option Nat :=
  (m.ranks.foldl (fun (b : Option (Nat × Nat)) e =>
    match b with
    | some x => if e.2 < x.2 ∨ (e.2 = x.2 ∧ e.1 < x.1) then some e else b
    | none => some e) none).map Prod.fst

/-- Whether PTP runs on an uplink. -/
def Plane.ptpOn (p : Plane) (u : Nat) : Bool :=
  bit (p.cfg Reg.PTP_CTRL) 0 && bit (p.cfg Reg.PTP_CFG) (16 + u) && fld (p.cfg Reg.PTP_CFG) 1 0 != 0

/-- A PTP message reaches a plane's servo. (DESIGN CHOICE, unsafe: assumption 56.) -/
def Plane.ptpMsg (p : Plane) (u : Nat) : PtpBody → Plane
  | .announce rank =>
    let was := p.mpe.receiver
    let p := p.updMpe fun m => { m with ranks := m.ranks.filter (fun e => e.1 != u) ++ [(u, rank)] }
    if p.mpe.receiver ≠ was ∨ p.mpe.sync = 0 then p.setSync 1 0 else p
  | .sync offset path =>
    if p.mpe.receiver ≠ some u then p
    else
      let p := (p.wr Reg.PTP_OFFSET (BitVec.ofNat 32 (toTwos 32 offset))).wr Reg.PTP_PATH (BitVec.ofNat 32 path)
      let a := offset.natAbs
      if a > 10000 then p.setSync 0 0
      else if a ≤ 1000 then
        let run := min 16 (p.mpe.syncRun + 1)
        p.setSync (if run = 16 ∨ p.mpe.sync = 2 then 2 else 1) run
      else p.setSync (if p.mpe.sync = 0 then 1 else p.mpe.sync) 0

/-- Whether a message is of the profile and in the domain that a plane's PTP runs: gPTP runs on domain 0 (R81, R93). -/
def Plane.ptpTakes (p : Plane) (u profile domain : Nat) : Bool :=
  p.ptpOn u && p.cfgF Reg.PTP_CFG 1 0 == profile && domain == (if profile = 3 then 0 else p.cfgF Reg.PTP_CFG 15 8)

/-- The request with which the active plane measures the path after a Sync: a peer delay request under gPTP, else a delay request (R81). Of the two
planes the active one alone transmits. (DESIGN CHOICE, unsafe: assumption 56.) -/
def State.ptpRequest (s : State) (u profile : Nat) : State :=
  match s.active? with
  | some i =>
    if (s.plane i).mpe.receiver = some u then
      s.field fun f => { f with fab := { f.fab with ptpSent := f.fab.ptpSent ++ [{ plane := i, uplink := u, peer := profile == 3, at_ := s.now }] } }
    else s
  | none => s

/-- PTP_MESSAGE_RECEIVE (R81): both planes run the servo on the same timestamps. -/
def execPtpMessageReceive (uplink : Fin 4) (msg : PtpMsg) (s : State) : Host.Outcome State Fault Refusal :=
  let takes (x : Plane) : Bool := x.ptpTakes uplink msg.profile msg.domain.toNat
  let t := s.updBoth fun x => if takes x then x.ptpMsg uplink msg.body else x
  .next (match msg.body, s.active? with
    | .sync _ _, some i => if takes (s.plane i) then t.ptpRequest uplink msg.profile else t
    | _, _ => t)

/-- ANNOUNCE_RECEIPT_TIMEOUT (R81). -/
def execAnnounceReceiptTimeout (s : State) : Host.Outcome State Fault Refusal :=
  .next (s.updBoth fun x => (x.updMpe fun m => { m with ranks := [] }).setSync 0 0)

/-! ### The cycle announcement (R82 to R84) -/

/-- The keys of the announcement slot: the active key, and a VERIFIED staged key for a receiver (R337, R338). -/
def Plane.annKeys (p : Plane) (staged : Bool) : List (List Byte) :=
  let n := fld (p.cfg Reg.PTP_ANN_PORT) 23 16
  let x := p.keySlot n
  if x.st = .active ∧ x.type = 4 ∧ x.tag = 0 then
    (p.activeKey n).toList ++ (if staged ∧ x.verified then (x.staged.map KeyMat.mat).toList else [])
  else []

/-- The 48 bytes of an announcement that names the plane's latest cycle. -/
def Plane.announcement (p : Plane) (key : List Byte) : List Byte :=
  let r := p.mpe.hist.headD { cycle := 0, ptp := 0, trim := 0 }
  let flags := (p.mpe.st == .locked).toNat + 2 * (p.mpe.st == .flywheel).toNat + 4 * (p.mpe.sync == 2).toNat
  let b := [1, BitVec.ofNat 8 flags] ++ leBytes 2 (fld (p.cfg Reg.PTP_BUILDING) 15 0) ++ sourceId ++ leBytes 8 (r.cycle * 4096) ++
    leBytes 6 (r.ptp / 1000000000) ++ [0, 0] ++ leBytes 4 (r.ptp % 1000000000) ++ leBytes 4 p.mpe.per
  b ++ (hmacOf key b).take 16

/-- Whether a whole second of PTP time lies between the last two tick 0s. -/
def MpeSt.newSecond (m : MpeSt) : Bool :=
  match m.hist with
  | x :: y :: _ => x.ptp / 1000000000 != y.ptp / 1000000000
  | _ => false

/-- CYCLE_ANNOUNCEMENT_SEND (R82): by a source that holds the lease, in the half-cycle in which the named cycle begins. -/
def execCycleAnnouncementSend (s : State) : Host.Outcome State Fault Refusal :=
  .next (match s.active? with
    | none => s
    | some i =>
      let p := s.plane i
      let ready := bit (p.cfg Reg.PTP_CTRL) 0 && bit (p.cfg Reg.PTP_CYC_CFG) 0 && (p.mpe.st == .locked || p.mpe.st == .flywheel) &&
        p.mpe.sync == 2 && p.mpe.newSecond && decide (s.now % 4096 < 2048)
      match ready, p.annKeys false, p.mpe.receiver with
      | true, k :: _, some u =>
        let a : Announced := { uplink := u, group := p.cfg Reg.PTP_ANN_GROUP, port := p.cfgF Reg.PTP_ANN_PORT 15 0, bytes := p.announcement k }
        s.field fun f => { f with fab := { f.fab with annSent := some a } }
      | _, _, _ => s)

/-- Measure an accepted announcement against the plane's own tick 0s (R84): CYC_DIFF, RESID, and TRIM at its own cycle c. -/
def MpeSt.measure (m : MpeSt) (c tSrc pSrc : Nat) : Int × Int × Option Int :=
  let own := m.hist.find? fun r => r.cycle == c
  let loc := own.getD (m.hist.headD { cycle := 0, ptp := 0, trim := 0 })
  let dt : Int := ((loc.ptp : Int) - tSrc) * 16
  let d := roundDiv dt pSrc
  let diff := if own.isSome then d else (c : Int) + d - loc.cycle
  (diff, roundDiv ((dt - d * pSrc) * 1048576) (max 1 m.per), own.map TickRec.trim)

/-- The trim target (R87). -/
def Plane.setTarget (p : Plane) (t : Int) : Plane :=
  let mx : Int := 256 * min 32 (fld (p.cfg Reg.PTP_CYC_CFG) 21 16)
  let limit := t < -mx || mx < t
  let was := p.mpe.trimLimit
  let p := p.updMpe fun m => { m with trimTarget := clampI (-mx) mx t, trimLimit := limit }
  if limit ∧ !was then p.evt Reg.PTP_EVT 12 else p

/-- A received announcement in a plane (R83 to R87). (DEDUCED, unsafe: assumption 29.) (DESIGN CHOICE, unsafe: assumption 56.) -/
def Plane.annReceive (p : Plane) (b : List Byte) : Plane :=
  let n (o k : Nat) : Nat := ofLe (slice b o k)
  let ok := b.length == 48 && (p.annKeys true).any (fun k => (hmacOf k (b.take 32)).take 16 == b.drop 32) && n 0 1 == 1 &&
    n 2 2 == fld (p.cfg Reg.PTP_BUILDING) 15 0 && n 1 1 / 4 % 2 == 1 && p.mpe.sync == 2
  if !ok then p.bump Reg.PTP_ANN_BAD 15 0
  else
    let p := p.bump Reg.PTP_ANN_RX 15 0
    let src := n 4 4
    if bit (p.cfg Reg.PTP_CYC_CFG) 0 then (if src = (Config.fuse 0).toNat then p else p.evt Reg.PTP_EVT 11)
    else
      let p := p.updMpe fun m => { m with sources := insertNat src m.sources }
      let follow := p.mpe.sources.headD src
      let p := p.wr Reg.PTP_FOLLOW_ID (BitVec.ofNat 32 follow)
      let p := if p.mpe.sources.length > 1 then p.evt Reg.PTP_EVT 11 else p
      if src ≠ follow then p
      else
        let (diff, resid, trim) := p.mpe.measure (n 8 8 / 4096) (n 16 6 * 1000000000 + n 24 4) (max 1 (n 28 4))
        let p := p.updMpe fun m => { m with cycDiff := diff }
        let p := (p.wr Reg.PTP_RESID (BitVec.ofNat 32 (toTwos 32 resid))).wr Reg.PTP_CYC_DIFF (BitVec.ofNat 32 (toTwos 32 diff))
        let p := if diff = 0 then p else p.evt Reg.PTP_EVT 10
        if p.mpe.cyc = .none then p.updMpe fun m => { m with adopt := some (m.adopt.getD diff) }
        else match trim with
          | some t => if p.mpe.cyc = .adopted ∧ bit (p.cfg Reg.PTP_CYC_CFG) 8 then p.setTarget (t + resid) else p
          | none => p

/-- CYCLE_ANNOUNCEMENT_RECEIVE (R83). -/
def execCycleAnnouncementReceive (bytes : List Byte) (s : State) : Host.Outcome State Fault Refusal :=
  .next (s.updBoth fun x => if bit (x.cfg Reg.PTP_CTRL) 0 then x.annReceive bytes else x)

/-! ### Starting, adopting and stepping (R85, R86, R88) -/

/-- A plane takes up its numbering. -/
def Plane.adopted (p : Plane) (now : Nat) : Plane :=
  (((p.updMpe fun m => { m with cyc := .adopted, adopt := none, cycDiff := 0 }).wr Reg.PTP_CYC_DIFF 0).evt Reg.PTP_EVT 9).checkValid now

/-- ADOPT (R86): at tick 0 after the first accepted announcement the cycle number steps by CYC_DIFF, while no data path has started. -/
def execAdopt (s : State) : Host.Outcome State Fault Refusal :=
  let p := s.plane s.lead
  let waits (x : Plane) : Bool := x.running && x.mpe.adopt.isSome && x.mpe.cyc == .none
  .next (if s.now % 4096 = 0 ∧ (waits s.a ∨ waits s.b) then
    let d := if waits p then p.mpe.adopt.getD 0 else (s.plane s.lead.other).mpe.adopt.getD 0
    let s := if s.dataPathStarted then s else s.shiftCycles d
    let s := s.updBoth fun x => if waits x then x.adopted s.now else x
    { s with a := s.a.markCycle (cycleOf s.now), b := s.b.markCycle (cycleOf s.now) }
  else s)

/-- ADOPT_WAIT_EXPIRY (R86). -/
def execAdoptWaitExpiry (p : PlaneId) (s : State) : Host.Outcome State Fault Refusal :=
  .next (s.upd p fun x =>
    match x.mpe.lockedTt with
    | some t =>
      if x.running ∧ x.mpe.cyc = .none ∧ x.mpe.adopt = none ∧
          t + max 1 (fld (x.cfg Reg.PTP_CYC_CFG) 31 24) * 1000000000 ≤ x.tt s.now then
        (x.updMpe fun m => { m with cyc := .standalone }).checkValid s.now
      else x
    | none => x)

/-- Lay the standing bookings of the model again after a forward step to half-cycle `hb`, of which `hb + 64` enters at the boundary; loops launch in
`hb` too. (DESIGN CHOICE, unsafe: assumption 56.) -/
def Plane.rebook (p : Plane) (hb : Nat) : Plane :=
  let p := p.updWeir fun w => { w with books := [], fired := [], copies := [] }
  let heads := p.heads
  let p := { (({ p with heads := [] } : Plane).enterModel hb) with heads := heads }
  (List.range 63).foldl (fun p i => p.enterModel (hb + 1 + i)) p

/-- REALIGNED (R88): at the first tick 0 with no command in flight both planes add CYC_DIFF. (DESIGN CHOICE, unsafe: assumption 56.) -/
def execRealigned (s : State) : Host.Outcome State Fault Refusal :=
  let p := s.plane s.lead
  let idle (x : Plane) : Bool := (x.slotsIn Slot.alive).isEmpty
  .next (if s.now % 4096 = 0 ∧ p.mpe.realign ∧ idle s.a ∧ idle s.b then
    let d := p.mpe.cycDiff
    if 0 < d then
      let old := cycleOf s.now
      let s := s.shiftCycles d
      let s := { s with a := s.a.markCycle (cycleOf s.now), b := s.b.markCycle (cycleOf s.now) }
      s.updBoth fun x =>
        let x := ((x.updMpe fun m => { m with realign := false, cyc := .adopted, cycDiff := 0 }).wr Reg.PTP_CYC_DIFF 0).evt Reg.PTP_EVT 13
        (x.stage 0x12 0 1 (leBytes 8 old ++ leBytes 8 (cycleOf s.now))).rebook (halfOf s.now)
    else s.updBoth fun x => x.updMpe fun m => { m with realign := false }
  else s)

end Sys2Proof.Machine
end

