-- ==== Sys2Proof/Machine/Scan.lean ====
section
/-!
DEFINITION. The Scan Engine (chapter 8): the program image and its load check, the block library, one scan, timers, the output
image and its submission, starts, online changes and retained commits.
-/
namespace Sys2Proof.Machine

/-! ### The program image (R198 to R200) -/

/-- A block record (R199). -/
structure Blk where
  type : Nat
  var : Nat
  tag : Nat
  out : Nat
  a : Nat
  b : Nat
  c : Nat
  p : Nat
deriving DecidableEq, Repr

/-- A field of a program body. -/
def progN (body : List Byte) (o k : Nat) : Nat := ofLe (slice body o k)

/-- Record `i` of a body. -/
def progBlk (body : List Byte) (i : Nat) : Blk :=
  let n (o k : Nat) : Nat := ofLe (slice body (640 + 16 * i + o) k)
  { type := n 0 1 % 64, var := n 0 1 / 64, tag := n 1 1, out := n 2 3, a := n 5 3, b := n 8 3, c := n 11 3, p := n 14 2 }

/-- BLOCKS, CONSTS, STATE_WORDS, WCET_NS and PROG_ID of a body. -/
def progBlocks (body : List Byte) : Nat := progN body 8 4
def progConsts (body : List Byte) : Nat := progN body 12 2
def progState (body : List Byte) : Nat := progN body 14 2
def progId (body : List Byte) : Nat := progN body 24 8

/-- Constant `k` of the pool as loaded. -/
def progConst (body : List Byte) (k : Nat) : Int := sext 32 (progN body (640 + 16 * progBlocks body + 4 * k) 4)

/-- The space and index of an operand (R200). -/
def opSpace (o : Nat) : Nat := o / 2 ^ 20
def opIdx (o : Nat) : Nat := o % 65536

/-- The cost of a block type in ns and its state words (R201). -/
def blkCost (t : Nat) : Nat :=
  [0, 30, 30, 30, 20, 20, 20, 30, 30, 40, 200, 20, 50, 30, 30, 30, 40, 60, 200, 200, 200, 90, 90, 50, 50, 300, 120, 600, 60, 30, 40].getD t 0
def blkState (t : Nat) : Nat :=
  if t = 0x11 ∨ t = 0x17 ∨ t = 0x18 then 1 else if 0x12 ≤ t ∧ t ≤ 0x14 then 4 else if t = 0x15 ∨ t = 0x16 then 2 else 0

/-- Whether a type is a timer. -/
def blkTimer (t : Nat) : Bool := 0x12 ≤ t && t ≤ 0x14

/-- The worst case of a body (R205). -/
def progWcet (body : List Byte) : Nat :=
  90000 + ((List.range (progBlocks body)).map fun i => blkCost (progBlk body i).type).sum

/-- SCAN.LIMIT for a period (R205). -/
def scanLimit (per : Nat) : Nat := per * 7500000 - 20000

/-- The applied PERIOD and PHASE. -/
def scanPeriod (g : Nat → Word) : Nat := max 1 (fld (g Reg.SCAN_CFG) 7 0)
def scanPhase (g : Nat → Word) : Nat := fld (g Reg.SCAN_CFG) 15 8

/-- Whether a half-cycle begins at a scan boundary (R207). -/
def isScanHalf (g : Nat → Word) (h : Nat) : Bool := h % scanPeriod g == scanPhase g

/-! ### The load check (R203, R204) -/

/-- Header faults of result 0x11. -/
def progHeadBad (body : List Byte) : Bool :=
  let nb := progBlocks body
  progN body 0 4 != 0x4E43534B || progN body 4 2 != 1 || nb == 0 || nb > 65536 ||
    progConsts body > 16384 || progState body > 32768 || progN body 20 4 != 0 || progN body 32 32 != 0 ||
    body.length != 640 + 16 * nb + 4 * progConsts body || ((body.drop 64).take 576).any (fun b => b.toNat ≥ 63)

/-- A type or variant that the library does not list. -/
def blkTypeBad (b : Blk) : Bool :=
  b.type == 0 || b.type > 0x1E || (if blkTimer b.type then b.var > 2 else if b.type == 0x15 || b.type == 0x16 then b.var > 1 else b.var != 0)

/-- An operand whose space or index is invalid. -/
def opBad (consts o : Nat) : Bool :=
  let i := opIdx o
  o / 65536 % 16 != 0 || (match opSpace o with
    | 0 => i != 0
    | 1 => false
    | 2 => i > 8191
    | 3 => i ≥ consts
    | 4 => i > 16383
    | _ => true)

/-- A parameter out of range. -/
def blkParamBad (b : Blk) : Bool :=
  match b.type with
  | 0x0D => b.p % 8 > 5
  | 0x19 => b.p > 511
  | 0x1A => b.p > 4095 || b.p / 512 > 2
  | 0x1B => b.p % 256 == 0 || b.p % 256 > 64
  | 0x1C => b.p / 8192 > 2
  | 0x1E => b.p % 8 > 6
  | _ => false

/-- Whether a point's entry may be written by the program (R200). -/
def pmWritable (e : PmEntry) : Bool := e.kind == 2 || e.kind == 4 || e.kind == 6 || (e.kind == 8 && e.src == 0xFFFF)

/-- An operand that may not be written. -/
def opReadOnly (g : Nat → Word) (o : Nat) : Bool :=
  opSpace o == 3 || (opSpace o == 2 && !pmWritable (pmEntry g (opIdx o)))

/-- The tag of the object an operand names (R198, R131), or none for NONE. -/
def opTag (g : Nat → Word) (body : List Byte) (o : Nat) : Option Nat :=
  match opSpace o with
  | 1 => some (progN body (64 + opIdx o / 256) 1)
  | 2 => some (pointTag g (opIdx o))
  | 3 => some (progN body (384 + opIdx o / 64) 1)
  | 4 => some (progN body (320 + opIdx o / 256) 1)
  | _ => none

/-- Whether a block names only objects that its tag allows (R204). -/
def blkTagOk (g : Nat → Word) (body : List Byte) (b : Blk) : Bool :=
  let t := b.tag
  t < 63 && (t == 0 || ([b.out, b.a, b.b, b.c].all (fun o => (opTag g body o).getD t == t) &&
    (if b.type == 0x19 || b.type == 0x1A then loopTag g (b.p % 512) == t
     else if b.type == 0x1C then pointTag g (b.p % 8192) == t else true)))

/-- A block whose state words overlap an earlier block's or pass STATE_WORDS. -/
def blkStateBad (body : List Byte) (i : Nat) : Bool :=
  let b := progBlk body i
  let n := blkState b.type
  n != 0 && (b.p + n > progState body || (List.range i).any fun j =>
    let o := progBlk body j
    let m := blkState o.type
    m != 0 && o.p < b.p + n && b.p < o.p + m)

/-- The load check of a body: its result and the block concerned. (DEDUCED, unsafe: assumption 41.) -/
def loadCheck (g : Nat → Word) (body : List Byte) : Nat × Nat :=
  let nb := progBlocks body
  let first (q : Blk → Bool) : Option Nat := (List.range nb).find? fun i => q (progBlk body i)
  if progHeadBad body then (0x11, 0)
  else match first fun b => b.tag / 64 != 0 with
  | some i => (0x11, i)
  | none =>
  if progN body 6 2 ≠ 1 then (0x12, 0)
  else match first blkTypeBad with
  | some i => (0x13, i)
  | none => match first fun b => [b.out, b.a, b.b, b.c].any (opBad (progConsts body)) || blkParamBad b with
  | some i => (0x14, i)
  | none => match first fun b => opReadOnly g b.out || (blkTimer b.type && opReadOnly g b.c) with
  | some i => (0x15, i)
  | none => match (List.range nb).find? (blkStateBad body) with
  | some i => (0x16, i)
  | none => match first fun b => !blkTagOk g body b with
  | some i => (0x17, i)
  | none =>
    if progWcet body ≠ progN body 16 4 then (0x18, 0)
    else if progWcet body > scanLimit (scanPeriod g) then (0x19, 0)
    else (1, 0)

/-! ### Running the blocks (R201, R202, R206) -/

/-- An entry of a table that may hold any value. -/
def findIn {α : Type} (t : Tab α) (k : Nat) : Option α := (t.find? fun e => e.1 == k).map Prod.snd

/-- What the blocks of a scan change: markers, retained and state words, written points, commands and loop requests formed, and the
counts of run-time tag and kind failures (R206) and of commands not formed. -/
structure ScanRun where
  markers : Tab Int
  retained : Tab Int
  state : Tab Int
  points : Tab (Int × Nat) := []
  fires : List (Nat × List Byte) := []
  calls : List (Nat × Int × Int) := []
  tagv : Nat := 0
  viol : Nat := 0
  errs : Nat := 0
deriving DecidableEq, Repr

/-- What the blocks of a scan read beside the words: the plane as at the input cut, the field side's links, S, TT(S) and the first
and warm marks. -/
structure ScanCtx where
  p : Plane
  f : FieldSide
  body : List Byte
  at_ : Nat
  tt : Nat
  first : Bool
  warm : Bool
  scans : Nat
  dfails : Nat

/-- A constant as last changed online. -/
def Plane.constNow (p : Plane) (body : List Byte) (k : Nat) : Int := (findIn p.scan.consts k).getD (progConst body k)

/-- Whether a block's tag no longer allows a point. -/
def tagLost (g : Nat → Word) (tag i : Nat) : Bool := tag != 0 && pointTag g i != tag

/-- A run-time failure on a point: one count, and one more where it is a tag failure (R206). -/
def ScanRun.violate (r : ScanRun) (tagFail : Bool) : ScanRun := { r with tagv := r.tagv + 1, viol := r.viol + tagFail.toNat }

/-- Read an operand. -/
def ScanCtx.read (x : ScanCtx) (tag : Nat) (o : Nat) (r : ScanRun) : (Int × Nat) × ScanRun :=
  match findIn x.p.scan.forces o with
  | some v => ((v, 1), r)
  | none =>
    let i := opIdx o
    match opSpace o with
    | 1 => ((Tab.get (fun _ => 0) r.markers i, 1), r)
    | 2 =>
      let e := x.p.pm i
      if e.kind = 0 ∨ tagLost x.p.cfg tag i then ((0, 3), r.violate (tagLost x.p.cfg tag i))
      else match findIn r.points i with
        | some v => (v, r)
        | none => ((x.p.value i, x.p.quality i), r)
    | 3 => ((x.p.constNow x.body i, 1), r)
    | 4 => ((Tab.get (fun _ => 0) r.retained i, 1), r)
    | _ => ((0, 1), r)

/-- Write an operand. -/
def ScanCtx.write (x : ScanCtx) (tag : Nat) (o : Nat) (v : Int) (q : Nat) (r : ScanRun) : ScanRun :=
  if (findIn x.p.scan.forces o).isSome then r
  else
    let i := opIdx o
    match opSpace o with
    | 1 => { r with markers := Tab.put (fun _ => 0) r.markers i v }
    | 2 =>
      let e := x.p.pm i
      if !pmWritable e || tagLost x.p.cfg tag i then r.violate (tagLost x.p.cfg tag i)
      else { r with points := Tab.ins r.points i (v, if e.kind = 8 then 1 else q) }
    | 4 => { r with retained := Tab.put (fun _ => 0) r.retained i v }
    | _ => r

/-- State words, kept as 32-bit patterns. -/
def ScanRun.word (r : ScanRun) (i : Nat) : Nat := (Tab.get (fun _ => (0 : Int)) r.state i).toNat
def ScanRun.setWord (r : ScanRun) (i v : Nat) : ScanRun := { r with state := Tab.put (fun _ => 0) r.state i ((v % 2 ^ 32 : Nat) : Int) }
def ScanRun.word64 (r : ScanRun) (i : Nat) : Nat := r.word i + 2 ^ 32 * r.word (i + 1)
def ScanRun.setWord64 (r : ScanRun) (i v : Nat) : ScanRun := (r.setWord i v).setWord (i + 1) (v / 2 ^ 32)

/-- A timer's state (R211). -/
structure Timer where
  origin : Int
  et : Nat
  prev : Bool
  run : Bool
  q : Bool
deriving DecidableEq, Repr

/-- Read and write a timer's four state words. -/
def ScanRun.timer (r : ScanRun) (i : Nat) : Timer :=
  let w := r.word64 (i + 2)
  { origin := sext 64 (r.word64 i), et := w % 2 ^ 56, prev := w.testBit 61, run := w.testBit 62, q := w.testBit 63 }
def ScanRun.setTimer (r : ScanRun) (i : Nat) (t : Timer) : ScanRun :=
  (r.setWord64 i (toTwos 64 t.origin)).setWord64 (i + 2) (t.et % 2 ^ 56 + 2 ^ 61 * t.prev.toNat + 2 ^ 62 * t.run.toNat + 2 ^ 63 * t.q.toNat)

/-- One execution of a timer (R211, R212): `el` gives the elapsed time since an origin and `pt` the preset, in one unit; `done` is Q
at expiry. -/
def Timer.compare (t : Timer) (el : Int → Int) (pt : Nat) (done : Bool) : Timer :=
  if (pt : Int) ≤ el t.origin then { t with q := done, run := false, et := pt } else { t with run := true, et := (el t.origin).toNat }
def Timer.step (t : Timer) (type : Nat) (inp : Bool) (now : Int) (el : Int → Int) (pt : Nat) : Timer :=
  let started : Timer := { t with origin := now, run := true }
  let t' :=
    if type = 0x12 then
      if !inp then { t with q := false, run := false, et := 0 }
      else if t.run then t.compare el pt true
      else if t.q then t else started.compare el pt true
    else if type = 0x13 then
      if inp then { t with q := true, run := false, et := 0 }
      else if t.prev then started.compare el pt false
      else if t.run then t.compare el pt false else t
    else
      if t.run then t.compare el pt false
      else if inp && !t.prev then ({ started with q := true } : Timer).compare el pt false else t
  { t' with prev := inp }

/-- Whether a point's station is present (R129). -/
def stationUp (f : FieldSide) (p : Plane) (i : Nat) : Bool :=
  let e := p.pm i
  let x := p.point i
  let fresh := e.stale == 0 || x.age ≤ 4 * e.stale
  !x.lost && (match e.kind with
    | 0 => false
    | 1 => (f.port e.src).link && fresh
    | 5 => !f.chanOff e.canCh && bit (p.cfg (Reg.CAN_CTRL e.canCh)) 0 && fresh
    | 7 => !p.meter.bad (regChannel e.src)
    | 9 => (p.loop (e.src % 512)).st != .hold
    | _ => true)

/-- A command record of the Scan Engine without its slot (R208). -/
def scanRecord (class_ kind tag deadline action value : Nat) : List Byte :=
  [1, BitVec.ofNat 8 (1 + 2 * class_ + 4 * kind), 0, BitVec.ofNat 8 tag] ++ leBytes 8 0 ++ leBytes 8 deadline ++ leBytes 4 action ++ leBytes 8 value

/-- The truth of a value and the value of a truth. -/
def tru (v : Int) : Bool := v != 0
def ofB (b : Bool) : Int := if b then 1 else 0

/-- Division as the library defines it: towards 0, saturated, and with a divisor of 0 by the sign of the dividend. -/
def blkDiv (a b : Int) : Int :=
  if b = 0 then (if 0 < a then 2147483647 else if a < 0 then -2147483648 else 0) else sat32 (Int.tdiv a b)

/-- The result of a block without state or side effect, from its operands' values. -/
def blkPure (b : Blk) (va vb vc : Int) : Int :=
  let ops := ([(b.a, va), (b.b, vb), (b.c, vc)].filter fun o => opSpace o.1 != 0).map fun o => tru o.2
  match b.type with
  | 0x01 => ofB (ops.all id)
  | 0x02 => ofB (ops.any id)
  | 0x03 => ofB (ops.countP id % 2 == 1)
  | 0x04 => ofB (!tru va)
  | 0x05 => ((toTwos 32 va / 2 ^ (b.p % 32)) % 2 : Nat)
  | 0x06 => va
  | 0x07 => sat32 (va + vb + vc)
  | 0x08 => sat32 (va - vb)
  | 0x09 => sat32 (va * vb / 2 ^ (b.p % 32))
  | 0x0A => blkDiv va vb
  | 0x0B => sat32 va.natAbs
  | 0x0C => sat32 (va * vb / 2 ^ (b.p % 32) + vc)
  | 0x0D => ofB (match b.p % 8 with
      | 0 => va == vb
      | 1 => va != vb
      | 2 => decide (vb < va)
      | 3 => decide (vb ≤ va)
      | 4 => decide (va < vb)
      | _ => decide (va ≤ vb))
  | 0x0E => if tru vc then vb else va
  | 0x0F => if b.p % 2 = 1 then max va vb else min va vb
  | 0x10 => max vb (min va vc)
  | _ => va

/-- The number of operands a type reads, from A on. -/
def blkReads (t : Nat) : Nat :=
  if [0x04, 0x05, 0x06, 0x0B, 0x17, 0x18].contains t then 1
  else if [0x08, 0x09, 0x0A, 0x0D, 0x0F, 0x12, 0x13, 0x14, 0x19, 0x1D].contains t then 2
  else if [0x1A, 0x1C, 0x1E].contains t then 0 else 3

/-- SCAN_INFO items. -/
def ScanCtx.info (x : ScanCtx) (item : Nat) : Int :=
  match item with
  | 0 => ofB x.first
  | 1 => ofB x.warm
  | 2 => sext 32 x.scans
  | 3 => sext 32 (x.tt / 1000000)
  | 4 => scanPeriod x.p.cfg
  | 5 => x.dfails
  | _ => x.p.mpe.st.num

/-- LOOP_READ items. -/
def LoopSt.item (l : LoopSt) (item : Nat) : Int :=
  if item = 0 then l.out
  else if item = 1 then ofB (l.shown == .hold) + 2 * ofB l.atHi + 4 * ofB l.atLo + 8 * ofB (l.shown == .manual)
  else l.ovr

/-- Execute one block. -/
def ScanCtx.exec (x : ScanCtx) (i : Nat) (r : ScanRun) : ScanRun :=
  let b := progBlk x.body i
  let n := blkReads b.type
  let ((va, qa), r) := if 0 < n then x.read b.tag b.a r else ((0, 1), r)
  let ((vb, qb), r) := if 1 < n then x.read b.tag b.b r else ((0, 1), r)
  let ((vc, qc), r) := if 2 < n then x.read b.tag b.c r else ((0, 1), r)
  let q := max qa (max qb qc)
  let out (v : Int) (q : Nat) (r : ScanRun) : ScanRun := x.write b.tag b.out v q r
  if b.type = 0x11 then
    let v := if vb ≤ va then 1 else if va ≤ vc then 0 else r.word b.p % 2
    out v q (r.setWord b.p v)
  else if blkTimer b.type then
    let cyc := b.var == 1
    let el (o : Int) : Int := if cyc then ((x.at_ : Int) - o) / 4096 else (x.tt : Int) - o
    let pt := vb.toNat * (if cyc then 1 else 1000000)
    let t := (r.timer b.p).step b.type (tru va) (if cyc then x.at_ else x.tt) el pt
    x.write b.tag b.c (sat32 (t.et / (if cyc then 1 else 1000000) : Nat)) q (out (ofB t.q) q (r.setTimer b.p t))
  else if b.type = 0x15 ∨ b.type = 0x16 then
    let cv := sext 32 (r.word b.p)
    let edge := tru va && r.word (b.p + 1) % 2 == 0
    let cv := if b.type = 0x15 then (if tru vb then 0 else if edge then sat32 (cv + 1) else cv)
      else (if tru vb then vc else if edge then sat32 (cv - 1) else cv)
    let done := if b.type = 0x15 then decide (vc ≤ cv) else decide (cv ≤ 0)
    out (if b.var % 2 = 1 then cv else ofB done) q ((r.setWord b.p (toTwos 32 cv)).setWord (b.p + 1) (tru va).toNat)
  else if b.type = 0x17 ∨ b.type = 0x18 then
    let was := r.word b.p % 2 == 1
    out (ofB (if b.type = 0x17 then tru va && !was else !tru va && was)) q (r.setWord b.p (tru va).toNat)
  else if b.type = 0x19 then out 1 q { r with calls := r.calls ++ [(b.p % 512, ofB (tru va), vb)] }
  else if b.type = 0x1A then
    let l := x.p.loop (b.p % 512)
    out (l.item (b.p / 512)) (if l.st = .hold then 3 else 1) r
  else if b.type = 0x1B then
    if !tru va then out 0 q r
    else if vc < 0 ∨ 4095 < vc then out 0 q { r with errs := r.errs + 1 }
    else out 1 q { r with fires := r.fires ++ [(i, scanRecord (b.p / 256 % 2) 0 b.tag (b.p % 256) vc.toNat (toTwos 64 vb))] }
  else if b.type = 0x1C then
    let k := b.p % 8192
    let v : Int := if b.p / 8192 = 0 then x.p.quality k else if b.p / 8192 = 1 then min 65535 (x.p.point k).age else ofB (stationUp x.f x.p k)
    out v 1 r
  else if b.type = 0x1D then out va (if vb = 1 then 1 else if vb = 2 then 2 else 3) r
  else if b.type = 0x1E then out (x.info (b.p % 8)) 1 r
  else out (blkPure b va vb vc) q r

/-! ### Starts, stops and the clock -/

/-- Change a plane's Scan Engine. -/
def Plane.updScan (p : Plane) (f : ScanSt → ScanSt) : Plane := { p with scan := f p.scan }

/-- Crystal periods in the present second: a shifted second has k fewer (R386). -/
def RtcSt.periods (r : RtcSt) : Nat := (32768 - (match r.shift with
  | some (k, _) => if r.shifting then k else 0
  | none => 0)).toNat

/-- SUBSEC (R382, R386): the crystal periods of the second so far, at the shifted second's rate. -/
def Plane.subsec (p : Plane) (now : Nat) : Nat :=
  if p.rtc.stopped then 0
  else min 32767 ((p.tt now - p.rtc.subTt) * 32768 / 1000000000 * 32768 / max 1 p.rtc.periods)

/-- A plane's real-time clock in sub-ticks of 1/32,768 s (R382, R383). -/
def Plane.clockNow (p : Plane) (now : Nat) : Nat := p.rtc.secs * 32768 + p.subsec now

/-- The reading for off-times: none while OSF is set (R215). -/
def Plane.clockRead (p : Plane) (now : Nat) : Option Nat := if p.rtc.osf then none else some (p.clockNow now)

/-- A check's report (R203). -/
def Plane.checkReport (p : Plane) (res idx : Nat) : Plane := (p.wr Reg.SCAN_CHECK (BitVec.ofNat 32 (res + 65536 * idx))).evt Reg.SCAN_EVT 8

/-- The page of the installed program with the constants changed online. -/
def Plane.commitProgram (p : Plane) : Plane :=
  match p.scan.prog with
  | some b => { p with tarn := p.tarn.commitObj progPage (.program b p.scan.consts) false }
  | none => p

/-- Take the next RUN command off. -/
def Plane.takeRun (p : Plane) : Plane := p.updScan fun x => { x with cmd := x.cmd.drop 1 }

/-- LOAD at its boundary: the check starts, on the objects as they stand. (DEDUCED, unsafe: assumption 39.) -/
def Plane.load (p : Plane) (now : Nat) : Plane :=
  let p := p.takeRun
  if p.scan.st = .running ∨ p.scan.st = .halted then p.checkReport 0x1A 0
  else
    let res := match p.scan.staged with
      | none => (0x10, 0)
      | some b => loadCheck p.cfg b
    p.updScan fun x => { x with checkAt := some (p.tt now), check := some res, checking := x.staged }

/-- The check ends: its report, and a passed image replaces the installed program (R203); one staged meanwhile stays staged. An engine started meanwhile
refuses. -/
def Plane.checkDone (p : Plane) : Plane :=
  match p.scan.check with
  | none => p
  | some (res, idx) =>
    let image := p.scan.checking
    let p := p.updScan fun x => { x with checkAt := none, check := none, checking := none }
    if p.scan.st = .running ∨ p.scan.st = .halted then p.checkReport 0x1A 0
    else if res ≠ 1 then p.checkReport res idx
    else
      let p := (p.checkReport 1 0).updScan fun x => { x with
        st := .stopped, prog := image, staged := if x.staged = image then none else x.staged, consts := [] }
      let body := p.scan.prog.getD []
      let p := (p.wr Reg.SCAN_WCET (BitVec.ofNat 32 (progWcet body))).wr64 Reg.SCAN_PROG_ID (progId body)
      let left : PageVal := match p.scan.staged with
        | some b => .program b []
        | none => .zero
      { p with tarn := (p.tarn.commitObj progPage (.program body []) true).commitObj stagedPage left true }

/-- START at its boundary (R205, R207). (DEDUCED, unsafe: assumption 39.) -/
def Plane.startRun (p : Plane) (warm : Bool) (now : Nat) : Plane :=
  let p := p.takeRun
  match p.scan.prog with
  | none => p.checkReport 0x1B 0
  | some body =>
    if p.scan.st = .running then p
    else if progWcet body > scanLimit (scanPeriod p.cfg) then p.checkReport 0x19 0
    else (p.clearFlag 2 1 now).updScan (fun x => { x with st := .running, start := some warm }) |>.evt Reg.SCAN_EVT 9

/-- STOP at its boundary (R207). `clock` is the active plane's reading, which both planes keep (R215). -/
def Plane.stopRun (p : Plane) (clock : Option Nat) (now : Nat) : Plane :=
  let p := p.takeRun
  if p.scan.st = .running ∨ p.scan.st = .halted then
    let p := p.clearFlag 2 1 now
    (p.updScan fun x => { x with st := .stopped, start := none, stopTt := if x.st = .halted then x.stopTt else some (p.tt now),
                                 stateClock := if x.st = .halted then x.stateClock else clock }).evt Reg.SCAN_EVT 10
  else p

/-- Resume the running timers of a warm start (R214, R215): ORIGIN ← now − ET, and in wall-time mode ET gains the off-time in ns. -/
def resumeTimers (body : List Byte) (at_ tt off : Nat) (state : Tab Int) : Tab Int :=
  ((List.range (progBlocks body)).foldl (fun (r : ScanRun) i =>
    let b := progBlk body i
    let t := r.timer b.p
    if blkTimer b.type && t.run then
      r.setTimer b.p { t with origin := if b.var = 1 then (at_ : Int) - 4096 * t.et else (tt : Int) - t.et - (if b.var = 2 then off else 0) }
    else r) { markers := [], retained := [], state := state }).state

/-- Whether a program has a wall-time timer that runs. -/
def wallTimers (body : List Byte) (state : Tab Int) : Bool :=
  let r : ScanRun := { markers := [], retained := [], state := state }
  (List.range (progBlocks body)).any fun i =>
    let b := progBlk body i
    blkTimer b.type && b.var == 2 && (r.timer b.p).run

/-- The start at its first scan boundary (R214). `clock` is the active plane's reading. -/
def Plane.begin_ (p : Plane) (warm : Bool) (clock : Option Nat) (now : Nat) : Plane :=
  let body := p.scan.prog.getD []
  let id := progId body
  let held := match p.scan.stateId with
    | none => false
    | some k => k == id || !p.scan.recalled
  let isWarm := warm && held
  let reset := isWarm && p.scan.stateId != some id
  let old := isWarm && p.scan.recalled && !p.scan.stateFinal
  let off := match clock, p.scan.stateClock with
    | some c, some t => some ((c - t) * 1000000000 / 32768)
    | _, _ => none
  let unknown := isWarm && !reset && off.isNone && wallTimers body p.scan.state
  let p := if old then (p.evt Reg.SCAN_EVT 17).stage 0x30 0 1 (leBytes 8 (p.tt now - p.scan.stateTt)) else p
  let p := if unknown then p.evt Reg.SCAN_EVT 19 else p
  let p := p.updScan fun x => { x with
    start := none, markers := [], retained := if isWarm then x.retained else [],
    state := if isWarm && !reset then resumeTimers body now (p.tt now) (off.getD 0) x.state else [],
    consts := if isWarm then x.consts else [], forces := [], first := true, warm := isWarm, consec := 0, stateId := some id,
    recalled := false, stopTt := none, stateClock := none, dfails := 0, prior := none }
  let p := if isWarm then p else p.commitProgram
  let p := (p.wrF Reg.SCAN_STAT 11 11 reset.toNat).wrF Reg.SCAN_STAT 13 12 (if isWarm then 2 else if warm then 3 else 1)
  (p.wr Reg.SCAN_SCANS 0).wr Reg.SCAN_FORCES 0

/-! ### Online change (R218, R219) -/

/-- Release a group: the items 0 to COUNT − 1 as they stand. -/
def Plane.releaseChg (p : Plane) (count b : Nat) : Plane :=
  let items := (List.range (min 64 count)).map fun k => ((p.cfg (Reg.SCAN_CHG k)).toNat, sext 32 (p.cfg (Reg.SCAN_CHG k + 4)).toNat)
  p.updScan fun x => { x with changes := x.changes ++ [{ at_ := b, count := count, items := items }] }

/-- Whether an item is valid for a program. -/
def chgItemOk (consts : Nat) (w : Nat) : Bool :=
  let o := w % 2 ^ 24
  match w / 2 ^ 28 with
  | 1 => opSpace o == 3 && !opBad consts o
  | 2 => (opSpace o == 1 || opSpace o == 2 || opSpace o == 4) && !opBad consts o
  | 3 => (opSpace o == 1 || opSpace o == 2 || opSpace o == 4) && !opBad consts o
  | 4 => o == 0
  | _ => false

/-- Apply one item. -/
def ScanSt.change (x : ScanSt) (item : Nat × Int) : ScanSt :=
  let o := item.1 % 2 ^ 24
  match item.1 / 2 ^ 28 with
  | 1 => { x with consts := Tab.ins x.consts (opIdx o) item.2 }
  | 2 => { x with forces := Tab.ins x.forces o item.2 }
  | 3 => { x with forces := Tab.del x.forces o }
  | 4 => { x with forces := [] }
  | _ => x

/-- A due group applies whole, or is refused with its reason. -/
def Plane.applyChg (p : Plane) (g : ChgGroup) (now : Nat) : Plane :=
  let consts := progConsts (p.scan.prog.getD [])
  let bad := (g.items.zipIdx).find? fun e => !chgItemOk consts e.1.1
  let new := g.items.foldl ScanSt.change p.scan
  let (reason, item) :=
    if g.count = 0 ∨ 64 < g.count then (1, 0)
    else match bad with
      | some e => (2, e.2)
      | none => if 256 < new.forces.length then (3, 0) else if p.scan.st ≠ .running then (4, 0) else (0, 0)
  let p := p.wr64 Reg.SCAN_CHG_AT now
  if reason = 0 then
    let p := { p with scan := new }
    let p := if g.items.any fun e => e.1 / 2 ^ 28 == 1 then p.commitProgram else p
    ((p.wr Reg.SCAN_CHG_STAT 1).wr Reg.SCAN_FORCES (BitVec.ofNat 32 new.forces.length)).evt Reg.SCAN_EVT 15
  else (p.wr Reg.SCAN_CHG_STAT (BitVec.ofNat 32 (2 + 256 * reason + 65536 * item))).evt Reg.SCAN_EVT 16

/-- Every group due at a scan boundary, in release order. -/
def Plane.applyDue (p : Plane) (now : Nat) : Plane :=
  let due := p.scan.changes.filter fun g => decide (g.at_ ≤ now)
  let p := p.updScan fun x => { x with changes := x.changes.filter fun g => !decide (g.at_ ≤ now) }
  due.foldl (fun p g => p.applyChg g now) p

/-! ### One scan (R207, R217) -/

/-- A scan still running at the next scan boundary (R217). (DESIGN CHOICE, unsafe: assumption 40.) -/
def Plane.overrun (p : Plane) (clock : Option Nat) (now : Nat) : Plane :=
  match p.scan.image with
  | none => p
  | some im =>
    if im.complete || p.scan.st != .running then p
    else
      let n := p.scan.consec + 1
      let p := (p.bump Reg.SCAN_OVR_CNT 15 0).evt Reg.SCAN_EVT 12
      let p := (p.updScan fun x => { x with image := none, consec := n }).stage 0x31 0 3 (leBytes 8 im.start ++ [BitVec.ofNat 8 n, 0, 0, 0])
      if n < 4 then p
      else ((p.updScan fun x => { x with st := .halted, start := none, stopTt := some (p.tt now), stateClock := clock }).evt
        Reg.SCAN_EVT 11).raise 2 1 now

/-- Scan slots in a final state are freed (R111, R116). -/
def Plane.freeScanSlots (p : Plane) : Plane :=
  (p.slotsIn fun x => x.st.final).foldl (fun p n =>
    if (p.slot n).scan.isSome || n ≥ 256 - min 192 p.weir.scanSlots then p.setSlot n {} else p) p

/-- Count `n` more in a saturating 16-bit count. -/
def Plane.count16 (p : Plane) (a n : Nat) : Plane := if n = 0 then p else p.wrF a 15 0 (satAdd 65535 (p.rdF a 15 0) n)

/-- Run every block once on the inputs of the cut; the output image is complete at SCAN_COMPLETE. (DESIGN CHOICE, unsafe: assumption 40.) -/
def Plane.runScan (p : Plane) (f : FieldSide) (now : Nat) : Plane :=
  let body := p.scan.prog.getD []
  let scans := (p.rd Reg.SCAN_SCANS).toNat
  let x : ScanCtx := { p := p, f := f, body := body, at_ := now, tt := p.tt now, first := p.scan.first, warm := p.scan.first && p.scan.warm,
                       scans := scans, dfails := p.scan.dfails }
  let r := (List.range (progBlocks body)).foldl (fun r i => x.exec i r)
    ({ markers := p.scan.markers, retained := p.scan.retained, state := p.scan.state } : ScanRun)
  let p := ((p.count16 Reg.SCAN_TAGV_CNT r.tagv).count16 Reg.ACCESS_VIOL_CNT r.viol).count16 Reg.SCAN_ERR_CNT r.errs
  let p := if r.tagv = 0 then p else p.evt Reg.SCAN_EVT 18
  let p := if r.viol = 0 then p else p.evt Reg.ACCESS_EVT 8
  let p := if r.errs = 0 then p else p.evt Reg.SCAN_EVT 0
  let p := p.updScan fun y => { y with
    markers := r.markers, retained := r.retained, state := r.state, first := false, dfails := 0,
    prior := some (y.prior.getD (y.retained, y.state)),
    image := some { start := now, points := r.points, fires := r.fires, calls := r.calls } }
  (p.wr Reg.SCAN_SCANS (BitVec.ofNat 32 (scans + 1))).wr64 Reg.SCAN_LAST_START now

/-- A scan boundary in a plane. -/
def Plane.scanBoundary (p : Plane) (f : FieldSide) (clock : Option Nat) (now : Nat) : Plane :=
  let p := (p.freeScanSlots).overrun clock now
  let p := match p.scan.st, p.scan.start with
    | .running, some warm => p.begin_ warm clock now
    | _, _ => p
  let p := p.applyDue now
  if p.scan.st = .running ∧ p.scan.image.isNone then p.runScan f now else p

/-- The retained and state areas, as the last completed scan left them, with their commit marks (R214). -/
def Plane.areasVal (p : Plane) (clock : Option Nat) (final : Bool) (now : Nat) : PageVal :=
  let (ret, st) := p.scan.prior.getD (p.scan.retained, p.scan.state)
  .scan ret st (p.scan.stateId.getD 0) (p.tt now) clock final

/-- The output image is complete at S + E (R207); the retained commit where it is due (R214). -/
def Plane.scanDone (p : Plane) (ns now : Nat) : Plane :=
  match p.scan.image with
  | none => p
  | some im =>
    if im.complete then p
    else
      let p := p.updScan fun x => { x with image := some { im with complete := true, doneAt := now }, consec := 0, prior := none }
      let p := (p.wr Reg.SCAN_LAST_TIME (BitVec.ofNat 32 ns)).wr Reg.SCAN_MAX_TIME (BitVec.ofNat 32 (max ns (p.rd Reg.SCAN_MAX_TIME).toNat))
      if p.scan.commitTt + max 1 (p.cfgF Reg.SCAN_CFG 31 24) * 1000000000 ≤ p.tt now then
        ({ p with tarn := p.tarn.commitObj areaPage (p.areasVal none false now) false }).updScan fun x => { x with commitTt := p.tt now }
      else p

/-! ### Submission (R208, R209) -/

/-- Take a written or forced value into an output point. -/
def Plane.outPoint (p : Plane) (i : Nat) (v : Int) (q : Nat) : Plane :=
  let x := p.point i
  let q := if (p.pm i).kind = 8 then 1 else q
  p.setPoint i { x with value := v, qual := q, last := if q = 3 then x.last else v, unwritten := false }

/-- The written values, with forced output points, become the points' values, and markers become visible. -/
def Plane.outImage (p : Plane) (im : ScanImage) : Plane :=
  let p := im.points.foldl (fun p e => if pmWritable (p.pm e.1) then p.outPoint e.1 e.2.1 e.2.2 else p) p
  let p := p.scan.forces.foldl (fun p e => if opSpace e.1 = 2 ∧ pmWritable (p.pm (opIdx e.1)) then p.outPoint (opIdx e.1) e.2 1 else p) p
  p.forPoints (fun e => e.kind == 10) fun p i =>
    p.setPoint i { p.point i with value := Tab.get (fun _ => 0) p.scan.markers (p.pm i).src, qual := 1 }

/-- The on/off sense of a kind 4 point: 1 off, 2 on. -/
def Plane.senseOf (p : Plane) (i : Nat) : Nat := if (p.pm i).scaleOut (p.value i) = 0 then 1 else 2

/-- The commands of an image without slots: origin as LAST_DFAIL shows it, tag and record, with the deadline of the half-cycle
`hs`. -/
def Plane.imageCmds (p : Plane) (was : Nat → Nat) (im : ScanImage) (hs : Nat) : List (Nat × Nat × List Byte) :=
  let fires := im.fires.map fun e =>
    (e.1, ofLe (slice e.2 3 1), e.2.take 12 ++ leBytes 8 ((hs + ofLe (slice e.2 12 8)) * 2048 + 2047) ++ e.2.drop 20)
  let pse := (p.pointIdx.filter fun i => (p.pm i).kind == 4 && p.senseOf i != was i).map fun i =>
    (i + 2 ^ 28, (p.pm i).tag,
      scanRecord 0 1 (p.pm i).tag ((hs + 64) * 2048 + 2047) ((p.pm i).dst % 128 + (if p.senseOf i = 2 then 256 else 0)) 0)
  fires ++ pse

/-- Give commands the lowest free scan slots, one after the other; those left over are not formed (R208). A command that Weir will refuse
takes no slot from the next. (DEDUCED, unsafe: assumption 32.) -/
def Plane.scanSlots (p : Plane) (f : FieldSide) (cmds : List (Nat × Nat × List Byte)) (now : Nat) : List Submission × Nat :=
  let taken := p.weir.scanQ.map fun q => ofLe (slice q.record 2 1)
  let lo := 256 - min 192 p.weir.scanSlots
  (cmds.foldl (fun (x : Plane × List Submission × Nat) e =>
    match (below 256 fun n => lo ≤ n && (x.1.slot n).st == .free && !taken.contains n).head? with
    | none => (x.1, x.2.1, x.2.2 + 1)
    | some n =>
      let sub : Submission := { path := 9, tag := BitVec.ofNat 6 e.2.1, record := e.2.2.set 2 (BitVec.ofNat 8 n), origin := e.1 }
      (match (decide_ x.1 f sub now).accept with
       | some (y, need) => x.1.takeSlot n y need
       | none => x.1, x.2.1 ++ [sub], x.2.2)) ({ p with red := { p.red with role := .active } }, [], 0)).2

/-- A command of the Scan Engine as Weir decides it: in the lowest scan slot that is free then (R208). -/
def Plane.slotted (p : Plane) (q : Submission) : Submission :=
  match (below 256 fun n => 256 - min 192 p.weir.scanSlots ≤ n && (p.slot n).st == .free).head? with
  | some n => { q with record := q.record.set 2 (BitVec.ofNat 8 n) }
  | none => q

/-- The output image as the output digest covers it (R209). -/
def Plane.outputBytes (p : Plane) (subs : List Submission) : List Byte :=
  (((p.pointIdx.filter fun i => [2, 4, 6, 8, 10].contains (p.pm i).kind).flatMap fun i =>
    leBytes 4 (toTwos 32 (p.value i)) ++ [BitVec.ofNat 8 (p.quality i)]) ++ subs.flatMap Submission.record)

/-- A LOOP_CALL request (R228): it waits for the loop's next sample and shows in the record at once. (DEDUCED, unsafe: assumption 41.) -/
def Plane.loopMode (p : Plane) (l mode : Nat) (man : Int) : Plane :=
  let w0 := setBit (p.cfg (loopRec l 0)) 1 (mode == 1)
  let w4 := BitVec.ofNat 32 (toTwos 32 man)
  let p := { p with applied := Tab.put regDefault (Tab.put regDefault p.applied (loopRec l 0) w0) (loopRec l 4) w4 }
  (p.showCfg (loopRec l 0)).showCfg (loopRec l 4)
def Plane.loopCall (p : Plane) (c : Nat × Int × Int) : Plane :=
  let m := if c.2.1 = 0 then 0 else 1
  (p.setLoop c.1 { p.loop c.1 with call := some (m, c.2.2) }).loopMode c.1 m c.2.2

/-- Submission of a plane's image at a half-cycle boundary. The standby keeps its commands until it has the active plane's decisions, to
decide them itself at a grant (R109, R253); on another plane without the lease, where no plane is active, every command is refused. -/
def State.submitImage (s : State) (i : PlaneId) : State :=
  let p := s.plane i
  match p.scan.image with
  | none => s
  | some im =>
    if !im.complete then s
    else
      let before := p
      let was (k : Nat) : Nat := (findIn p.scan.sense k).getD (before.senseOf k)
      let p := p.outImage im
      let (subs, lost) := p.scanSlots s.fs (p.imageCmds was im (halfOf s.now)) s.now
      let p := if lost = 0 then p else (p.count16 Reg.SCAN_SLOT_FULL_CNT lost).evt Reg.SCAN_EVT 14
      let p := im.calls.foldl Plane.loopCall p
      let bytes := p.outputBytes subs
      let dig := crc32c bytes
      let sense := (p.pointIdx.filter fun k => (p.pm k).kind == 4).map fun k => (k, p.senseOf k)
      let p := p.updScan fun x => { x with image := none, sense := sense, digest := dig, stored := bytes, lastDone := s.now }
      let p := if p.isActive ∨ p.red.role = .standby then p.updWeir fun w => { w with scanQ := w.scanQ ++ subs }
        else if s.active?.isNone then subs.foldl (fun p q => p.deliveryFail q.origin 0x23 0) p else p
      (s.setPlane i p).sendDigest i 0 s.now dig

/-! ### Meanings -/

/-- Apply `f` to every running plane whose next RUN command has a code. -/
def State.onRun (s : State) (code : Nat) (f : Plane → Plane) : State :=
  s.updBoth fun p => if p.scan.cmd.head? = some code then f p else p

/-- SCAN_LOAD (R203). -/
def execScanLoad (s : State) : Host.Outcome State Fault Refusal := .next (s.onRun 1 fun p => p.load s.now)

/-- CHECK_DONE (R203). -/
def execCheckDone (p : PlaneId) (s : State) : Host.Outcome State Fault Refusal := .next (s.upd p Plane.checkDone)

/-- START_WARM (R207, R214). -/
def execStartWarm (s : State) : Host.Outcome State Fault Refusal := .next (s.onRun 2 fun p => p.startRun true s.now)

/-- START_COLD (R207, R214). -/
def execStartCold (s : State) : Host.Outcome State Fault Refusal := .next (s.onRun 3 fun p => p.startRun false s.now)

/-- STOP (R207). -/
def execStop (s : State) : Host.Outcome State Fault Refusal := 
  let clock := (s.plane s.lead).clockRead s.now
  .next (s.onRun 4 fun p => p.stopRun clock s.now)

/-- SCAN_BOUNDARY (R207). -/
def execScanBoundary (p : PlaneId) (s : State) : Host.Outcome State Fault Refusal :=
  let x := s.plane p
  .next (if s.now % 2048 = 0 ∧ x.live ∧ x.dataPath ∧ isScanHalf x.cfg (halfOf s.now) then
    s.upd p fun x => x.scanBoundary s.fs ((s.plane s.lead).clockRead s.now) s.now
  else s)

/-- SCAN_COMPLETE (R207). -/
def execScanComplete (p : PlaneId) (ns : Nat) (s : State) : Host.Outcome State Fault Refusal :=
  .next (s.upd p fun x => x.scanDone ns s.now)

/-- SCAN_IMAGE_SUBMIT (R208). -/
def execScanImageSubmit (p : PlaneId) (s : State) : Host.Outcome State Fault Refusal :=
  .next (if s.now % 2048 = 0 ∧ (s.plane p).running then s.submitImage p else s)

end Sys2Proof.Machine
end

