-- ==== Sys2Proof/Machine/Loops.lean ====
section
/-!
DEFINITION. The Loop Engine (chapter 9): records and sections, the sample arithmetic, requests, overruns, publication and loop
launches.
-/
namespace Sys2Proof.Machine

/-! ### Records and sections (R222, R235, R236) -/

/-- Byte address of coefficient word `k` of a slot and bank (5 coefficients and SHIFTS) and of a loop's control word, in the loop
tables' own space. -/
abbrev secWord (slot bank k : Nat) : Nat := 0x410000 + 32 * (2 * slot + bank) + 4 * k
abbrev loopCtlAddr (l : Nat) : Nat := 0x460000 + 4 * l

/-- The Tarn page of the loops' banks. -/
def bankPage : Nat := 14340

/-- Fields of a loop record, as a function of its words. -/
structure LoopRec where
  en : Bool
  mode : Bool
  reverse : Bool
  idir : Bool
  badFreeze : Bool
  actEn : Bool
  integEn : Bool
  tag : Nat
  first : Nat
  count : Nat
  integ : Nat
  period : Nat
  phase : Nat
  hi : Int
  lo : Int
  man : Int
  act : Nat
  ofs : Nat
deriving DecidableEq, Repr

/-- Read a record from its words. -/
def loopDecode (w : Nat → Word) : LoopRec :=
  let b (n : Nat) : Bool := bit (w 0) n
  { en := b 0, mode := b 1, reverse := b 2, idir := b 3, badFreeze := b 4, actEn := b 5, integEn := b 6, tag := fld (w 0) 13 8,
    first := fld (w 0) 27 16, count := fld (w 1) 3 0, integ := fld (w 1) 6 4, period := fld (w 1) 17 8 + 1, phase := fld (w 1) 29 20,
    hi := (w 2).toInt, lo := (w 3).toInt, man := (w 4).toInt, act := fld (w 5) 11 0, ofs := fld (w 5) 25 16 }

/-- Record `l` in a word reader. -/
def loopRecOf (g : Nat → Word) (l : Nat) : LoopRec := loopDecode fun k => g (loopRec l k)

/-- Whether two records' slot ranges overlap. -/
def LoopRec.overlaps (r o : LoopRec) : Bool := r.count != 0 && o.count != 0 && r.first < o.first + o.count && o.first < r.first + r.count

/-- Whether a record's launch head is as R230 asks. -/
def LoopRec.headOk (r : LoopRec) (g : Nat → Word) : Bool :=
  let h := atHead g r.act
  (h.kind == 1 || h.kind == 2) && headComplete g r.act && h.en && h.fire == 0 && h.tag == r.tag

/-- The reason for which a completed loop record is refused, or 0: the image `g`, the applied configuration `a`, its words. (DEDUCED, unsafe: assumption 41.) -/
def loopReason (g a : Nat → Word) (l : Nat) (w : Nat → Word) : Nat :=
  let r := loopDecode w
  let o := loopRecOf a l
  if r.count > 8 || (r.count == 0 && r.en) || r.first + r.count > 4096 then 1
  else if (List.range 512).any fun k => k != l && r.overlaps (loopRecOf g k) then 2
  else if r.hi < r.lo then 3
  else if r.phase ≥ r.period || (r.actEn && r.period != 2 ^ Nat.log2 r.period) then 4
  else if (r.actEn && (!r.headOk g || r.ofs < 32)) || (!r.actEn && r.ofs != 0) then 5
  else if o.en && r.en && (r.tag != o.tag || r.first != o.first || r.count != o.count || r.integ != o.integ || r.integEn != o.integEn ||
      r.period != o.period || r.phase != o.phase || r.actEn != o.actEn || r.act != o.act || r.ofs != o.ofs) then 6
  else if (w 0 &&& 0xF000C080#32) != 0 || (w 1 &&& 0xC00C0080#32) != 0 || (w 5 &&& 0xFC00F000#32) != 0 || r.tag == 63 ||
      !tagActive g r.tag || (r.count != 0 && r.integ ≥ r.count) then 7
  else 0

/-- The loop whose range holds a slot, and the slot's tag (R237). -/
def slotLoop (g : Nat → Word) (slot : Nat) : Option Nat :=
  (List.range 512).find? fun l => let r := loopRecOf g l; r.first ≤ slot && slot < r.first + r.count
def slotTag (g : Nat → Word) (slot : Nat) : Nat :=
  match slotLoop g slot with
  | some l => loopTag g l
  | none => 0

/-- The reason for which a completed section is refused, or 0. -/
def Plane.sectionReason (p : Plane) (slot bank : Nat) (shifts : Word) : Nat :=
  if (shifts &&& 0xFE000000#32) != 0 then 7
  else match slotLoop p.cfg slot with
    | some l => if (loopRecOf p.cfg l).en && (p.loop l).bank == bank then 8 else 0
    | none => 0

/-! ### Arithmetic (R224, R225) -/

/-- Saturation to 80-bit signed. -/
def sat80 (v : Int) : Int := clampI (-(2 ^ 79)) (2 ^ 79 - 1) v

/-- T(k, v) in units of 2^-32 of a signal's LSB. -/
def coefTerm (c : Int) (f : Nat) (v : Int) : Int := if f ≤ 16 then v * c * 2 ^ (16 - f) else v * c / 2 ^ (f - 16)

/-- A section: coefficients b0, b1, b2, a1, a2 with their shifts. -/
structure Section where
  c : List Int
  f : List Nat
deriving DecidableEq, Repr

/-- T of coefficient `k` of a section. -/
def Section.t (s : Section) (k : Nat) (v : Int) : Int := coefTerm (s.c.getD k 0) (s.f.getD k 0) v

/-- The section of a slot and bank as applied. -/
def sectionOf (g : Nat → Word) (slot bank : Nat) : Section :=
  { c := (List.range 5).map fun k => (g (secWord slot bank k)).toInt,
    f := (List.range 5).map fun k => fld (g (secWord slot bank 5)) (5 * k + 4) (5 * k) }

/-- One pass of the outputs of a cascade: for each section its input and output, and whether a sum saturated. -/
structure Pass where
  xs : List Int := []
  ys : List Int := []
  sat : Bool := false
deriving DecidableEq, Repr

/-- The first half of `sample_auto`: A[i] and y[i] of every section in turn. -/
def cascade (secs : List (Section × Int × Int)) (x : Int) : Pass :=
  secs.foldl (fun r s =>
    let xi := (r.ys.getLast?).getD x
    let raw := s.1.t 0 xi + s.2.1
    let y := sat32 ((sat80 raw + 2 ^ 31) / 2 ^ 32)
    { xs := r.xs ++ [xi], ys := r.ys ++ [y], sat := r.sat || sat80 raw != raw }) {}

/-- A section's state update, and whether it saturated. -/
def secUpdate (s : Section) (s2 x y : Int) : (Int × Int) × Bool :=
  let n1 := s.t 1 x - s.t 3 y + s2
  let n2 := s.t 2 x - s.t 4 y
  ((sat80 n1, sat80 n2), sat80 n1 != n1 || sat80 n2 != n2)

/-- What a sample in AUTO gives: output, limits, held, saturation and the sections' new states. -/
structure AutoSample where
  out : Int
  atHi : Bool
  atLo : Bool
  held : Bool
  sat : Bool
  secs : List (Int × Int)
deriving DecidableEq, Repr

/-- `sample_auto` (R224, R225). -/
def sampleAuto (r : LoopRec) (secs : List (Section × Int × Int)) (x ff : Int) : AutoSample :=
  let q := cascade secs x
  let u := sat32 ((q.ys.getLast?).getD x + ff)
  let d := (if r.idir then -1 else 1) * q.xs.getD r.integ 0
  let held := r.integEn && ((decide (r.hi ≤ u) && decide (0 < d)) || (decide (u ≤ r.lo) && decide (d < 0)))
  let new := (secs.zipIdx).map fun e =>
    if held && e.2 == r.integ then (e.1.2, false) else secUpdate e.1.1 e.1.2.2 (q.xs.getD e.2 0) (q.ys.getD e.2 0)
  { out := max r.lo (min u r.hi), atHi := decide (r.hi ≤ u), atLo := decide (u ≤ r.lo), held := held,
    sat := q.sat || new.any Prod.snd, secs := new.map Prod.fst }

/-! ### Inputs (R223, R229) -/

/-- The points of kind 8 that name a loop and a role, in rising index. -/
def Plane.loopRoles (p : Plane) (l role : Nat) : List Nat :=
  p.pointIdx.filter fun i => let e := p.pm i; e.kind == 8 && e.dst % 512 == l && e.sig % 4 == role

/-- A role's raw value, and the quality of what supplies it. -/
def Plane.loopIn (p : Plane) (l role : Nat) : Int × Nat :=
  match (p.loopRoles l role).head? with
  | none => (0, 1)
  | some i =>
    let e := p.pm i
    if e.src = 0xFFFF then (e.scaleOut (p.value i), 1) else (e.scaleOut (p.value (e.src % 8192)), p.quality (e.src % 8192))

/-- Points of kind 8 that name a source take its value at each sample of the loop (R126). -/
def Plane.loopRefresh (p : Plane) (l : Nat) : Plane :=
  p.forPoints (fun e => e.kind == 8 && e.dst % 512 == l && e.src != 0xFFFF) fun p i =>
    p.setPoint i { p.point i with value := p.value ((p.pm i).src % 8192), qual := 1 }

/-! ### States of a loop (R230, R231, R233) -/

/-- The slots of a loop. -/
def loopSlots (g : Nat → Word) (l : Nat) : List Nat := let r := loopRecOf g l; (List.range r.count).map fun i => r.first + i

/-- Every state of a loop is set to 0. -/
def Plane.loopZero (p : Plane) (l : Nat) : Plane :=
  { p with sections := (loopSlots p.cfg l).foldl (fun t k => Tab.put (fun _ => (0, 0)) t k (0, 0)) p.sections }

/-- A swap takes effect (R231). -/
def Plane.loopSwap (p : Plane) (l : Nat) (reset : Bool) : Plane :=
  let p := (p.setLoop l { p.loop l with bank := 1 - (p.loop l).bank, swap := none }).evt Reg.LOOP_EVT 14
  let p := { p with tarn := p.tarn.commit [(bankPage, .words ((p.loops.filter fun e => e.2.bank != 0).map fun e => (e.1, BitVec.ofNat 32 e.2.bank)))] }
  if reset then p.loopZero l else p

/-- A loop's launches stop for want of their path (R230). -/
def Plane.loopStop (p : Plane) (l cause now : Nat) : Plane :=
  (p.setLoop l { p.loop l with booked := false, lstop := true }).missed true l cause now (loopTag p.cfg l) true

/-- Check and book a loop's launches from half-cycle `hb` on, on enabling, REARM or the return of its path: the loop runs, or enters REFUSED (R103, R230).
`t0` is 0 at the boundary that begins `hb`, where half-cycle `hb + 64` has not yet entered the model, and otherwise the stamp of the sample. -/
def Plane.loopEnable (p : Plane) (f : FieldSide) (l hb t0 : Nat) : Plane :=
  let r := loopRecOf p.cfg l
  let x := p.loop l
  let run : LoopState := if r.mode then .manual else .auto
  let p := p.updWeir fun w => w.unbook (.loop l)
  let p := p.setLoop l { x with st := run, consec := 0, booked := false, lstop := false }
  if !r.actEn then p
  else
    let path := (atHead p.cfg r.act).path
    if p.weir.supplyShed ∨ pathDisabled p.cfg path ∨ pathStops f path then
      p.loopStop l (if p.weir.supplyShed then 1 else 3) (hb * 2048)
    else match p.bookStanding f (.loop l) hb (hb + if t0 = 0 then 63 else 64) t0 with
      | some p => p.setLoop l { p.loop l with booked := true }
      | none => ((p.setLoop l { p.loop l with st := .refused }).evt Reg.LOOP_EVT 11).evt Reg.WEIR_EVT 10

/-- A loop record applies at the boundary that begins half-cycle `hb` (R233). -/
def Plane.loopApply (p : Plane) (f : FieldSide) (l hb : Nat) : Plane :=
  let x := p.loop l
  let p := p.setLoop l { x with seq := 0 }
  if !(loopRecOf p.cfg l).en then
    (p.updWeir fun w => w.unbook (.loop l)).setLoop l { p.loop l with st := .off, booked := false, lstop := false, next := none }
  else if x.st = .off ∨ x.st = .refused then p.loopEnable f l hb 0
  else p

/-- An L_CTRL write applies: for a loop with EN 0 at its boundary, otherwise at its next sample (R231, R233). -/
def Plane.loopCtl (p : Plane) (l : Nat) (data : Word) : Plane :=
  let en := (loopRecOf p.cfg l).en
  let p := if bit data 0 then
      (if en then p.setLoop l { p.loop l with swap := some (bit data 1) } else p.loopSwap l (bit data 1)) else p
  let p := if bit data 2 then (if en then p.setLoop l { p.loop l with clear := true } else p.loopZero l) else p
  if bit data 3 && en then p.setLoop l { p.loop l with rearm := true } else p

/-- At a half-cycle boundary a loop whose path is up again is checked as on enabling (R230). -/
def Plane.loopRetry (p : Plane) (f : FieldSide) (hb : Nat) : Plane :=
  (p.loops.filter fun e => e.2.lstop && e.2.st != .off && e.2.st != .refused && !e.2.foreign).foldl (fun p e =>
    let r := loopRecOf p.cfg e.1
    let path := (atHead p.cfg r.act).path
    if p.weir.supplyShed ∨ pathDisabled p.cfg path ∨ pathStops f path then p
    else match p.bookStanding f (.loop e.1) hb (hb + 63) 0 with
      | some p => p.setLoop e.1 { p.loop e.1 with booked := true, lstop := false }
      | none => ((p.setLoop e.1 { p.loop e.1 with st := .refused, lstop := false }).evt Reg.LOOP_EVT 11).evt Reg.WEIR_EVT 10) p

/-! ### One sample (R226, R227) -/

/-- Whether a loop samples at quarter-cycle `q`. -/
def loopSamples (g : Nat → Word) (l q : Nat) : Bool :=
  let r := loopRecOf g l
  r.en && q % r.period == r.phase

/-- The requests due at Q take effect, in order: swap, CLEAR, REARM, mode from configuration, LOOP_CALL. -/
def Plane.loopRequests (p : Plane) (f : FieldSide) (l now : Nat) : Plane :=
  let p := match (p.loop l).swap with
    | some reset => p.loopSwap l reset
    | none => p
  let p := if (p.loop l).clear then (p.loopZero l).setLoop l { p.loop l with clear := false } else p
  let p := match (p.loop l).call with
    | some (m, v) => (p.setLoop l { p.loop l with call := none }).loopMode l m v
    | none => p
  let x := p.loop l
  let run : LoopState := if (loopRecOf p.cfg l).mode then .manual else .auto
  if x.st = .off then p.loopEnable f l (halfOf now) now
  else if x.rearm then
    let p := p.setLoop l { x with rearm := false }
    if x.st = .hold then p.setLoop l { p.loop l with st := run, consec := 0 }
    else if x.st = .refused then p.loopEnable f l (halfOf now) now
    else p.setLoop l { p.loop l with st := run }
  else if x.st = .auto ∨ x.st = .manual then p.setLoop l { x with st := run }
  else p

/-- The sample of a loop on the inputs of its cut (R224, R228, R229). -/
def Plane.loopCompute (p : Plane) (l now : Nat) : LoopNext :=
  let r := loopRecOf p.cfg l
  let x := p.loop l
  let pv := p.loopIn l 0
  let sp := (p.loopIn l 1).1
  let ff := (p.loopIn l 2).1
  let dup := [0, 1, 2].any fun role => (p.loopRoles l role).length > 1
  if x.st = .manual then
    { at_ := now, out := max r.lo (min r.man r.hi), atHi := decide (r.hi ≤ r.man), atLo := decide (r.man ≤ r.lo), frozen := x.frozen, dup := dup }
  else if r.badFreeze ∧ pv.2 = 3 then
    { at_ := now, out := x.out, atHi := x.atHi, atLo := x.atLo, held := x.held, sat := x.sat, frozen := true, dup := dup }
  else
    let slots := loopSlots p.cfg l
    let secs := slots.map fun k => (sectionOf p.cfg k x.bank, Tab.get (fun _ => ((0 : Int), (0 : Int))) p.sections k)
    let y := sampleAuto r secs (sat32 (if r.reverse then pv.1 - sp else sp - pv.1)) ff
    { at_ := now, out := y.out, atHi := y.atHi, atLo := y.atLo, held := y.held, sat := y.sat, dup := dup, secs := slots.zip y.secs }

/-- Q: requests, the input cut and the computation of every loop that samples. A cascade reads the outputs as before Q, since none is
published yet. -/
def Plane.loopCut (p : Plane) (f : FieldSide) (now : Nat) : Plane :=
  let due := below 512 fun l => loopSamples p.cfg l (now / 1024)
  let was := p
  let p := due.foldl (fun p l => p.loopRequests f l now) p
  let run := due.filter fun l => (p.loop l).st == .auto || (p.loop l).st == .manual
  let p := run.foldl (fun p l => p.loopRefresh l) p
  run.foldl (fun q l => q.setLoop l { q.loop l with next := some { p.loopCompute l now with was := (was.loop l).st } }) p

/-- A loop's overrun (R232): the sample is discarded whole; the fourth in a row puts the loop in HOLD. -/
def Plane.loopOverrun (p : Plane) (l now : Nat) : Plane :=
  let x := p.loop l
  let p := p.setLoop l { x with next := none, ovr := satInc 65535 x.ovr, consec := x.consec + 1 }
  let p := (p.bump Reg.LOOP_OVR_CNT 15 0).evt Reg.LOOP_EVT 9
  if x.consec + 1 < 4 then p
  else
    let p := (p.setLoop l { p.loop l with st := .hold }).wr Reg.LOOP_LAST_HOLD (BitVec.ofNat 32 l)
    let p := (p.evt Reg.LOOP_EVT 10).stage 0x32 (BitVec.ofNat 6 (loopTag p.cfg l)) 3 (leBytes 2 l ++ [0, 0] ++ leBytes 8 now)
    p.forPoints (fun e => e.kind == 9 && e.src % 512 == l) Plane.pointBad

/-- A sample completes: outputs, status, states and the loop's kind 9 points. -/
def Plane.loopPublish (p : Plane) (l : Nat) (n : LoopNext) : Plane :=
  let x := p.loop l
  let entered := n.frozen && !x.frozen
  let p := p.setLoop l { x with next := none, out := n.out, atHi := n.atHi, atLo := n.atLo, held := n.held, frozen := n.frozen,
                                sat := n.sat, dup := n.dup, consec := 0, lastAt := n.at_ }
  let p := { p with sections := n.secs.foldl (fun t (k : Nat × Int × Int) => Tab.put (fun _ => (0, 0)) t k.1 k.2) p.sections }
  let p := if entered then p.evt Reg.LOOP_EVT 15 else p
  p.forPoints (fun e => e.kind == 9 && e.src % 512 == l) fun p i => p.refresh i n.out

/-- The loop digest of one boundary (R234). -/
def Plane.loopDigest (p : Plane) (sampled stalled : List Nat) : Nat :=
  crc32c (sampled.flatMap fun l =>
    let x := p.loop l
    leBytes 2 l ++ leBytes 4 (toTwos 32 x.out) ++
      [BitVec.ofNat 8 (x.atHi.toNat + 2 * x.atLo.toNat + 4 * x.held.toNat + 8 * (x.st == .manual).toNat + 16 * x.frozen.toNat +
        32 * (stalled.contains l).toNat)])

/-- A loop's launch at Q + 24 (R230): it takes its place in the loop's count (R137), is missed where the entry no longer stands, and is sent by the plane that drives. -/
def State.loopLaunch (s : State) (i : PlaneId) (l q : Nat) : State :=
  let p := s.plane i
  let r := loopRecOf p.cfg l
  let tick := q * 1024 + r.ofs
  if !(r.actEn && (p.loop l).booked && p.weir.books.any fun b => b.src == .loop l && b.tick == tick) then s
  else
    let seq := (p.loop l).seq + 1
    let s := s.upd i fun p => p.setLoop l { p.loop l with seq := seq }
    if !r.headOk p.cfg then s.upd i fun p => (p.bump Reg.LOOP_MISS_CNT 15 0).evt Reg.LOOP_EVT 12
    else if (s.plane i).isActive then s.transmit i (.loop l) ((s.plane i).buildStanding (atCopy p.cfg r.act) tick (0x8000 + l) seq) else s

/-- Q + 24: publication, the digest and the launches. -/
def State.loopFinish (s : State) (i : PlaneId) (stalled : List Nat) : State :=
  let q := s.now / 1024
  let p := s.plane i
  let sampled := below 512 fun l => (p.loop l).next.isSome
  let stalled := stalled ++ sampled.filter fun l => (p.loop l).next.any LoopNext.stalled
  let p := sampled.foldl (fun p l =>
    if stalled.contains l then p.loopOverrun l s.now
    else match (p.loop l).next with
      | some n => p.loopPublish l n
      | none => p) p
  let s := s.setPlane i p
  let s := if sampled = [] then s else s.sendDigest i 1 s.now (p.loopDigest sampled stalled)
  (below 512 fun l => loopSamples p.cfg l q).foldl (fun s l => s.loopLaunch i l q) s

/-! ### Meanings -/

/-- Samples that a fault keeps from completing. (DEDUCED, unsafe: assumption 42.) -/
def Plane.loopStall (p : Plane) (l : List Nat) : Plane :=
  l.foldl (fun p l => p.setLoop l { p.loop l with next := (p.loop l).next.map fun n => { n with stalled := true } }) p

/-- LOOP_SAMPLE (R227): at a quarter-cycle boundary Q the requests and the samples, at Q + 24 what they give; `stalled` are the loops
whose sample a fault keeps from completing by Q + 24, which may show at Q + 24 or before. -/
def execLoopSample (p : PlaneId) (stalled : List (Fin 512)) (s : State) : Host.Outcome State Fault Refusal :=
  let x := s.plane p
  .next (if !(x.running && x.dataPath) then s
    else if s.now % 1024 = 0 then s.upd p fun x => if x.live then x.loopCut s.fs s.now else x
    else if s.now % 1024 = 24 then s.loopFinish p (stalled.map Fin.val)
    else s.upd p fun x => x.loopStall (stalled.map Fin.val))

end Sys2Proof.Machine
end

