-- ==== Sys2Proof/Machine/Commands.lean ====
section
/-!
DEFINITION. Deterministic commands (chapter 4): submissions, Weir's decisions, sending, the Launch Fabric's re-sends and links, release,
start, allowances and aborts.
-/
namespace Sys2Proof.Machine

/-! ### Decisions (R96, R105, R109, R110) -/

/-- CMD.RESULT of a decision. -/
def resultWord (code slot detail : Nat) : Word := BitVec.ofNat 32 (code + 256 * slot + 65536 * detail)

/-- Count a decision on the WEIR page (R122). -/
def Plane.countDecision (p : Plane) (code : Nat) : Plane :=
  let refused (p : Plane) : Plane := p.evt Reg.WEIR_EVT 8
  if code = 0x10 then p.bump Reg.WEIR_ACC_CNT 15 0
  else if code = 0x20 then refused (p.bump Reg.WEIR_REF_A 15 0)
  else if code = 0x21 then refused (p.bump Reg.WEIR_REF_A 31 16)
  else if code = 0x22 then refused (p.bump Reg.WEIR_REF_B 15 0)
  else if code = 0x23 then refused (p.bump Reg.WEIR_REF_B 31 16)
  else refused (p.bump Reg.WEIR_REF_C 15 0)

/-- Answer a submission on its path: RESULT, and for a session its CMD_SUBMIT request (R66). -/
def Plane.answerCmd (p : Plane) (path : Nat) (w : Word) : Plane :=
  let p := (p.updPath path fun x => { x with cmdPending := false }).pwr path Reg.CMD_RESULT w
  if path = 0 then p
  else match (p.session (path - 1)).submitting with
    | none => p
    | some (seq, addr) =>
      p.setSession (path - 1) { p.session (path - 1) with
        submitting := none, answer := some { op := 3, status := 0, words := 8, addr := addr, seq := seq, viol := 0, data := [w] } }

/-- The sources with a submission waiting, by number: 0 to 8 the paths, 9 the Scan Engine. -/
def WeirSt.waiting (w : WeirSt) (k : Nat) : Option Submission :=
  if k = 9 then w.scanQ.head? else w.subs.find? fun q => q.path == k

/-- The source that Weir serves next: in turn from `turn` on. -/
def WeirSt.nextSource (w : WeirSt) : Option Nat := ((List.range 10).map fun i => (w.turn + i) % 10).find? fun k => (w.waiting k).isSome

/-- Take a submission off its source. -/
def WeirSt.served (w : WeirSt) (k : Nat) : WeirSt :=
  { w with turn := (k + 1) % 10, subs := if k = 9 then w.subs else w.subs.filter fun q => q.path != k,
           scanQ := if k = 9 then w.scanQ.drop 1 else w.scanQ }

/-- Take a decision into the deciding plane. -/
def Plane.takeVerdict (p : Plane) (k : Nat) (v : Verdict) : Plane :=
  let p := p.countDecision v.code
  let p := match v.accept with
    | some (x, need) =>
      let p := p.takeSlot v.slot x need
      if k = 9 then p else (p.pwr k Reg.CMD_SEQ (BitVec.ofNat 32 x.seq)).pwr k Reg.CMD_LAUNCH (lo32 x.launch)
        |>.pwr k (Reg.CMD_LAUNCH + 4) (hi32 x.launch)
    | none => p
  if k = 9 then p else p.answerCmd k (resultWord v.code v.slot v.detail)

/-- What a standby is told of an acceptance (R109). -/
def decisionOf (sub : Submission) (slot : Nat) (x : Slot) : Decision :=
  { scan := x.scan, slot := slotFin slot, seq := x.seq, launch := x.launch, recovery := x.recovery, tag := sub.tag, record := sub.record,
    copy := match x.action with
      | .table _ _ c => c
      | _ => [] }

/-- The plane's Weir decides the submission of the next source in turn (R105, R109), and a launch whose send time has passed is sent at once
(R120). A standby decides nothing and refuses what waits (R29, R96); the commands of its Scan Engine wait for the active plane's decisions. -/
def State.weirDecide (s : State) (p : PlaneId) : State :=
  let x := s.plane p
  let w := if x.red.role = .standby then { x.weir with scanQ := [] } else x.weir
  match w.nextSource with
    | none => s
    | some k => match w.waiting k with
      | none => s
      | some sub =>
        let sub := if k = 9 then x.slotted sub else sub
        let v := if x.isActive then decide_ x s.fs sub s.now
          else { code := 0x23, detail := 0x21, slot := ofLe (slice sub.record 2 1), accept := none }
        let s := s.upd p fun x => (x.updWeir fun w => w.served k).takeVerdict k v
        match v.accept with
        | some (y, _) =>
          let s := if s.followed p then s.later (s.now + 1) (.decisionSync (decisionOf sub v.slot y)) else s
          s.sendSlot p v.slot
        | none => if k = 9 then (s.upd p.other fun x => x.updWeir fun w => if x.red.role = .standby then w.scanTaken sub.origin else w).updBoth
            fun x => x.deliveryFail sub.origin v.code 0 else s

/-- WEIR_DECIDE (R105, R109). -/
def execWeirDecide (p : PlaneId) (s : State) : Host.Outcome State Fault Refusal := .next (s.weirDecide p)

/-- The slot that an acceptance of the active plane fills. -/
def decisionSlot (g : Nat → Word) (d : Decision) : Slot × Need :=
  let n (o k : Nat) : Nat := ofLe (slice d.record o k)
  let a := match recAction g d.record with
    | .table i v _ => .table i v d.copy
    | a => a
  let need := actionNeed g a
  ({ st := .booked, tag := BitVec.ofNat 6 (n 3 1), g1 := n 1 1 / 2 % 2 == 1, earliest := n 1 1 % 2 == 1, seq := d.seq, launch := d.launch,
     recovery := d.recovery, deadline := n 12 8, path := need.path, action := a, scan := d.scan }, need)

/-- DECISION_SYNC (R109): the standby takes a decision of the active plane with its slot, CMD_SEQ, ticks and copied entry; the slot is SENT
where the launch's send time has come (R111, R120). -/
def execDecisionSync (d : Decision) (s : State) : Host.Outcome State Fault Refusal :=
  .next ([PlaneId.a, .b].foldl (fun s i =>
    if (s.plane i).follows then
      s.upd i fun p =>
        let (x, need) := decisionSlot p.cfg d
        let p := match d.scan with
          | some o => p.updWeir fun w => w.scanTaken o
          | none => p
        p.takeSlot d.slot.val { x with st := if halfOf x.launch ≤ halfOf s.now + 1 then .sent else .booked } need
    else s) s)

/-- Submit the record of a path (R96): on a standby plane it is refused at once. -/
def Plane.submit (p : Plane) (path : Nat) (tag : Tag) (record : List Byte) : Plane :=
  if p.isActive then
    ((p.updPath path fun x => { x with cmdPending := true }).pwr path Reg.CMD_RESULT (resultWord 1 (ofLe (slice record 2 1)) 0)).updWeir
      fun w => { w with subs := w.subs ++ [{ path := path, tag := tag, record := record }] }
  else (p.countDecision 0x23).answerCmd path (resultWord 0x23 (ofLe (slice record 2 1)) 0x21)

/-! ### Sending (R120, R137) -/

/-- LAUNCH_SEND (R120, R230): the send time of a launch. -/
def execLaunchSend (p : PlaneId) (src : LaunchRef) (s : State) : Host.Outcome State Fault Refusal :=
  .next (if (s.plane p).running then
    match src with
    | .slot n => s.sendSlot p n.val
    | .head j => s.sendHead p j.val
    | .loop l => s.loopLaunch p l.val (s.now / 1024)
    | .intent n => s.sendIntent p n.val
  else s)

/-! ### The Launch Fabric (R30, R119 to R121) -/

/-- The field side's compare-and-set of an ABORT block (R114): the launch not yet released is removed, with the blocks of it still under way. -/
def State.fieldAbort (s : State) (i : PlaneId) (b : BlockFields) : State :=
  -- a release due in the same tick takes effect first (R112)
  let s := match s.fs.lq.find? fun l => !l.standing && l.slot == b.slot && l.seq == b.seq && !l.released && decide (l.tick ≤ s.now) with
    | some l => s.releaseLaunch l
    | none => s
  let late := s.fs.ended b.slot b.seq s.now == some true
  let s := if late then s else s.withdrawCmd b.slot b.seq
  let l : Launch := { plane := i, standing := false, slot := b.slot, seq := b.seq, tick := b.stamp, path := b.path, tag := BitVec.ofNat 6 b.tag }
  (s.sendReport l (if late then 4 else 3) s.now).later (s.now + 1) (.abortReport (slotFin b.slot) (!late))

/-- A good block at the field side: acknowledged, and a gap before it answered. -/
def State.fieldBlock (s : State) (i : PlaneId) (link : Nat) (bytes : List Byte) (b : BlockFields) : State :=
  let exp := s.fs.expect i link
  let gap := (b.lseq + 65536 - exp) % 65536
  let s := (List.range (if gap < 32768 then gap else 0)).foldl (fun s k =>
    s.later (s.now + 1) (.lfabNakReceive i (linkFin link) ((exp + k) % 65536))) s
  let s := if gap < 32768 then s.field fun f => f.setExpect i link (b.lseq + 1) else s
  let tx := (s.plane i).weir.tx.find? fun t => t.link == link && t.lseq == b.lseq && t.bytes == bytes
  let s := s.upd i fun p => p.updWeir fun w => { w with tx := w.tx.filter fun t => !(t.link == link && t.lseq == b.lseq) }
  if b.type = 1 ∨ b.type = 2 then s.queueBlock i b (tx.map fun t => (t.idx, t.len))
  else if b.type = 3 then (if s.fs.au.actsAt i s.now then s.fieldAbort i b else s)
  else if b.type = 4 then s.auBlock bytes (ofLe (b.payload.take 1))
  else s

/-- The answer of an abort on its path. -/
def Plane.abortAnswer (p : Plane) (path code : Nat) : Plane := p.pwr path Reg.CMD_ABORT_RESULT (BitVec.ofNat 32 code)

/-- Answer every path that waits for the abort of a slot. -/
def Plane.abortAnswers (p : Plane) (n code : Nat) : Plane :=
  ((p.slot n).aborters.foldl (fun p k => p.abortAnswer k code) p).setSlot n { p.slot n with aborters := [] }

/-- The bytes of a block sent again: RESEND set, a new LSEQ and its CRC, which an armed error inverts (R124). -/
def resendBytes (b : List Byte) (lseq : Nat) (bad : Bool) : List Byte :=
  let h := (b.take 60).set 1 (b.getD 1 0 ||| 1#8)
  let h := h.take 2 ++ leBytes 2 lseq ++ h.drop 4
  let c := crc32c h
  h ++ leBytes 4 (if bad then c ^^^ 0xFFFFFFFF else c)

/-- A block's attempt failed (R30, R120): the first re-send on the other link, the second on either, and after it the launch is lost. (DEDUCED, unsafe: assumption 31.) -/
def State.blockFailed (s : State) (i : PlaneId) (t : TxBlock) : State :=
  let w := (s.plane i).weir
  let s := s.upd i fun p => p.updWeir fun w => { w with tx := w.tx.filter fun x => !(x.link == t.link && x.lseq == t.lseq) }
  let other := if w.linkUp.getD (1 - t.link) false then some (1 - t.link) else if w.linkUp.getD t.link false then some t.link else none
  match (if t.tries < 3 then other else none) with
  | some link =>
    let s := if t.tries = 2 then s.upd i fun p => (p.bump Reg.LFAB_RESEND2_CNT 15 0).evt Reg.LFAB_EVT 8 else s
    s.sendBlock i link (t.tries + 1) t.src t.idx t.len fun lseq bad => resendBytes t.bytes lseq bad
  | none =>
    let s := s.upd i fun p => (p.bump Reg.LFAB_LOST_CNT 15 0).evt Reg.LFAB_EVT 9
    if ofLe (t.bytes.take 1) = 3 then
      s.upd i fun p => match t.src with
        | .slot n => p.abortAnswers n 3
        | _ => p
    else match t.src with
      | .slot n => (s.withdrawCmd n ((s.plane i).slot n).seq).updBoth fun p => p.break_ n 2 s.now
      | .head j =>
        let tick := ofLe (slice t.bytes 4 8)
        (s.withdraw fun l => l.standing && l.seq == j && l.tick == tick).updBoth fun p => p.missed false j 2 tick (entryTag p.cfg j) true
      | .loop l =>
        let tick := ofLe (slice t.bytes 4 8)
        (s.withdraw fun x => x.standing && x.seq == 0x8000 + l && x.tick == tick).updBoth fun p => p.missed true l 2 tick (loopTag p.cfg l) true
      | .intent n =>
        let tick := ofLe (slice t.bytes 4 8)
        (s.withdraw fun x => x.standing && x.seq == 0x10000 + n && x.tick == tick).retryIntent n
      | .lease => s

/-- LFAB_NAK_RECEIVE (R120): a negative acknowledgement of a block sent on a link. -/
def execLfabNakReceive (p : PlaneId) (link : Fin 2) (lseq : Nat) (s : State) : Host.Outcome State Fault Refusal :=
  let t := s.upd p fun x => x.bump (Reg.LFAB_NAK link.val) 15 0
  .next (match (s.plane p).weir.tx.find? fun b => b.link == link.val && b.lseq == lseq with
    | none => t
    | some b => t.blockFailed p b)

/-- LINK.UP_k and STAT.DEGRADED of a plane as its links stand. -/
def Plane.showLinks (p : Plane) : Plane :=
  let u := fun k => p.weir.linkUp.getD k false
  (p.wr Reg.LFAB_LINK (BitVec.ofNat 32 ((u 0).toNat + 2 * (u 1).toNat))).wrF Reg.LFAB_STAT 8 8 (!(u 0 && u 1)).toNat

/-- LINK_DOWN (R121): what was on the link has failed its attempt; with both links down the plane has a fault (R435). -/
def execLinkDown (p : PlaneId) (link : Fin 2) (s : State) : Host.Outcome State Fault Refusal :=
  .next (if !(s.plane p).weir.linkUp.getD link.val false then s
    else
      let s := s.upd p fun x => (((x.updWeir fun w => { w with linkUp := w.linkUp.set link.val false }).showLinks).evt Reg.LFAB_EVT 10).raise
        2 0 s.now
      let leases := ((s.plane p).weir.tx.filter fun t => t.link == link.val && t.src == .lease).map TxBlock.bytes
      let mine (c : Instr) : Bool := match c with
        | .lfabBlockReceive i true l _ => i == p && l == link
        | .renew b | .claim b | .release b => leases.contains b
        | _ => false
      let s := s.field fun f => { f with due := f.due.filter fun d => !mine d.2 }
      let s := ((s.plane p).weir.tx.filter fun t => t.link == link.val).foldl (fun s t => s.blockFailed p t) s
      if (s.plane p).weir.linkUp.any id then s else s.planeFault p 7)

/-- LINK_UP (R121, R434): the link is in lock again. -/
def execLinkUp (p : PlaneId) (link : Fin 2) (s : State) : Host.Outcome State Fault Refusal :=
  .next (s.upd p fun x =>
    let x := (x.updWeir fun w => { w with linkUp := w.linkUp.set link.val true }).showLinks
    if x.weir.linkUp.all id then x.clearFlag 2 0 s.now else x)

/-! ### Release, start and allowance (R97, R98, R111) -/

/-- LAUNCH_RELEASE (R97, R100, R118): the field side reaches a queued launch's tick. -/
def execLaunchRelease (p : PlaneId) (standing : Bool) (slot seq : Nat) (s : State) : Host.Outcome State Fault Refusal :=
  .next (match s.fs.lq.find? fun l => l.is p standing slot seq s.now && !l.released with
    | some l => s.releaseLaunch l
    | none => s)

/-- TRANSMISSION_START (R97, R111): an output that was released and held starts; it leaves its uplink's queue. -/
def execTransmissionStart (path slot seq : Nat) (s : State) : Host.Outcome State Fault Refusal :=
  let frame := (s.fs.lq.find? fun l => l.released && !l.standing && l.path == path && l.slot == slot && l.seq == seq)
  let s := match frame with
    | some l =>
      let s := s.field fun f => { f with lq := f.lq.filter fun x => !x.is l.plane l.standing l.slot l.seq l.tick }
      if 0x200 ≤ path ∧ path < 0x204 then
        (s.wireLaunch (128 + (path - 0x200)) l.payloads.flatten).field fun f =>
          let u := f.uplink (path - 0x200)
          f.setUplink (path - 0x200) { u with held := u.held.filter fun k => k != (l.standing, l.slot, l.seq, l.tick) }
      else s
    | none => s
  .next (s.reportStart false slot seq)

/-- ALLOWANCE_EXPIRY (R100, R111, R277): ALLOW has passed without a start; the output keeps its turn. -/
def execAllowanceExpiry (slot : Fin 256) (s : State) : Host.Outcome State Fault Refusal :=
  .next (s.updBoth fun p =>
    let x := p.slot slot.val
    if x.st = .launched ∧ x.launch + allowance p.cfg x.path < s.now then
      let p := p.finish slot.val .broken (if x.path < 0x300 then 5 else 6) s.now
      if 0x200 ≤ x.path ∧ x.path < 0x204 then (p.bump (Reg.UPL_PAUSE_BROKEN (x.path - 0x200)) 15 0).evt (Reg.UPL_EVT (x.path - 0x200)) 10
      else p
    else p)

/-! ### Abort (R114) -/

/-- Tell the standby of an abort's answer. -/
def State.tellAbort (s : State) (i : PlaneId) (n : Nat) (answer : Fin 6) : State :=
  if s.followed i then s.later (s.now + 1) (.abortSync (slotFin n) answer s.now) else s

/-- Send an ABORT block for a SENT command; with no live link the launch cannot be recalled, which is answered as one already released. (DESIGN CHOICE, unsafe: assumption 58.) -/
def State.sendAbort (s : State) (i : PlaneId) (n : Nat) : State :=
  let x := (s.plane i).slot n
  match (s.plane i).weir.linkOf (.slot n) x.launch with
  | none => s.upd i fun p => p.abortAnswers n 3
  | some (link, _) => s.sendBlock i link 1 (.slot n) 0 0 fun lseq bad =>
      blockBytes 3 (2 * i.num) lseq x.launch n x.tag.toNat x.path x.seq [] bad

/-- A write of CMD.ABORT on a plane's path. -/
def State.abortCmd (s : State) (i : PlaneId) (path : Nat) (tag : Tag) (n : Nat) : State :=
  let p := s.plane i
  let x := p.slot n
  let ans (code : Nat) (s : State) : State := s.upd i fun p => p.abortAnswer path code
  if !p.isActive then ans 5 s
  else if x.st = .free then ans 4 s
  else if tag ≠ 0 ∧ tag ≠ x.tag then ans 5 (s.upd i fun p => p.violate path tag true 4 Reg.CMD_ABORT s.now)
  else if x.st = .booked then (ans 2 (s.upd i fun p => p.finish n .aborted 0 s.now)).tellAbort i n 2
  else if x.st = .sent then
    -- a second path's abort takes the answer to the block that is under way
    let t := ans 1 (s.upd i fun p => p.setSlot n { x with aborters := x.aborters.filter (fun k => k != path) ++ [path] })
    (if x.aborters = [] then t.sendAbort i n else t).tellAbort i n 1
  else if x.st = .launched then (ans 3 (s.upd i fun p => p.finish n .abortLate 0 s.now)).tellAbort i n 3
  else ans 3 s

/-- An abort's outcome in a plane: `removed` says that the launch was not yet released. -/
def Plane.aborted (p : Plane) (n : Nat) (removed : Bool) (now : Nat) : Plane :=
  let x := p.slot n
  let late := !removed || !(x.st == .sent || x.st == .booked)
  let p := p.abortAnswers n (if late then 3 else 2)
  if x.alive then p.finish n (if late then .abortLate else .aborted) 0 now else p

/-- ABORT_REPORT (R114): the field side's answer to an ABORT block reaches both planes. -/
def execAbortReport (slot : Fin 256) (removed : Bool) (s : State) : Host.Outcome State Fault Refusal :=
  .next (s.updBoth fun p => if (p.slot slot.val).st = .free then p else p.aborted slot.val removed s.now)

/-- ABORT_SYNC (R114): the standby takes an abort of the active plane with its answer; a PENDING one follows by report. -/
def execAbortSync (slot : Fin 256) (answer : Fin 6) (stamp : Nat) (s : State) : Host.Outcome State Fault Refusal :=
  .next ([PlaneId.a, .b].foldl (fun s i =>
    if (s.plane i).follows ∧ (answer = 2 ∨ answer = 3) ∧ ((s.plane i).slot slot.val).alive then
      s.upd i fun p => p.finish slot.val (if answer = 2 then .aborted else .abortLate) 0 stamp
    else s) s)

/-- A write to a DONE bit by a tag that may see the slot: a final host slot is freed, a scan slot at the next scan boundary (R111, R123). -/
def Plane.doneClear (p : Plane) (n : Nat) : Plane :=
  let x := p.slot n
  if !x.st.final then p
  else if x.scan.isSome || n ≥ 256 - min 192 p.weir.scanSlots then p.setSlot n { x with done := false }
  else p.setSlot n {}

end Sys2Proof.Machine
end

