-- ==== Sys2Proof/Machine/Tarn.lean ====
section
/-!
DEFINITION. Tarn and the event recorder (chapter 15): stores, the journal, recall, passwords, the host window, chain seals and
the reading of records.
-/
namespace Sys2Proof.Machine

/-- Change a plane's Tarn. -/
def Plane.updTarn (p : Plane) (f : TarnSt → TarnSt) : Plane := { p with tarn := f p.tarn }

/-! ### Images of register pages (R21, R37) -/

/-- The Tarn page that holds the image of a register page, window page or page of the loop tables' space. -/
def regPage (pg : Nat) : Nat := if pg = 1 ∨ pg = 2 then 14592 + pg else 12544 + pg

/-- The image of a register page: its fields kept by the store, where they differ from their first-start values. -/
def Plane.regImage (p : Plane) (pg : Nat) : PageVal :=
  let as := ((p.applied ++ p.regs).filter fun e => e.1 / 4096 == pg && tarnMask e.1 != 0).foldl (fun l e => insertNat e.1 l) []
  .words (as.map fun a => (a % 4096, merge (cfgMask a) (p.rd a) (p.cfg a) &&& tarnMask a))

/-- Commit the images of the register pages that hold the given addresses. (DEDUCED, unsafe: assumption 43.) -/
def Plane.commitRegs (p : Plane) (addrs : List Nat) : Plane :=
  let pgs := (addrs.filter fun a => tarnMask a != 0).foldl (fun l a => insertNat (a / 4096) l) []
  if pgs = [] then p else p.updTarn fun t => t.commit (pgs.map fun g => (regPage g, p.regImage g))

/-! ### Stores (R359, R360) -/

/-- The pages that a store of `l` writes: with every earlier group that touches a page of the store, and so on. -/
def storeClosure (groups : List (List Nat)) : Nat → List Nat → List Nat
  | 0, l => l
  | fuel + 1, l => storeClosure groups fuel ((groups.filter fun g => g.any l.contains).foldl (fun l g => g.foldl (fun l n => insertNat n l) l) l)

/-- A requested store starts: it captures its pages under one new SSEQ. The operating time is stored with every store (R369). -/
def Plane.storeStart (p : Plane) (now : Nat) : Plane :=
  let t := p.tarn
  if t.run.isSome ∨ (t.next = [] ∧ !t.nextAll) then p
  else
    let p := p.updTarn fun t => t.commit [(countPage, p.countsVal)]
    let t := p.tarn
    let pages := if t.nextAll then t.dirty else storeClosure t.groups (t.groups.length + 1) (insertNat countPage t.next)
    let sseq := t.lastSseq + 1
    p.updTarn fun t => { t with
      run := some { sseq := sseq, todo := pages.map fun n => (n, t.page n), count := pages.length, pf := t.nextPf, startTt := p.tt now },
      next := [], nextAll := false, nextPf := false, lastSseq := sseq, dirty := t.dirty.filter fun n => !pages.contains n,
      groups := t.groups.filter fun g => !g.all pages.contains, waitRun := t.waitNext, waitNext := [] }

/-- The value of a journal cell that counts, and LAST_COMPLETE of the journal (R362). -/
def cellKey (c : Nat × Bool) : Nat := if c.2 then c.1 + 1 else 0
def lastComplete (j : List (Nat × Bool)) : Nat := j.foldl (fun m c => if c.2 then max m c.1 else m) 0

/-- Write an SSEQ into the older journal cell. -/
def writeJournal (j : List (Nat × Bool)) (v : Nat) : List (Nat × Bool) :=
  match j with
  | [x, y] => if cellKey x ≤ cellKey y then [(v, true), y] else [x, (v, true)]
  | _ => [(v, true)]

/-- What waited for a store. -/
def Plane.storeDone (p : Plane) (tok : Nat) : Plane :=
  if tok < 9 then (p.pwr tok Reg.TARN_H_STAT (setFld (p.prd tok Reg.TARN_H_STAT) 1 0 2)).evt Reg.TARN_EVT 11
  else if tok = 16 then p.keyStored
  else (p.bump Reg.TACC_COMMIT_CNT 15 0).evt Reg.TACC_EVT 8

/-- The journal write completes the store (R360). -/
def Plane.stored (p : Plane) (now : Nat) : Plane :=
  match p.tarn.run with
  | none => p
  | some r =>
    let us := (p.tt now - r.startTt) / 1000
    let wait := p.tarn.waitRun
    let p := p.updTarn fun t => { (r.todo.foldl (fun (t : TarnSt) (e : Nat × PageVal) => t.writeSlot e.1 r.sseq e.2) t) with
      run := none, journal := writeJournal t.journal r.sseq, waitRun := [], lastPfOk := t.lastPfOk || r.pf }
    let p := ((p.wr64 Reg.TARN_STORE_SEQ r.sseq).wr64 Reg.TARN_LAST_STORE now).wr Reg.TARN_STORE_TIME (BitVec.ofNat 32 (min 65535 us))
    let p := (p.bump Reg.TARN_STORE_CNT 15 0).evt Reg.TARN_EVT 8
    let p := wait.foldl Plane.storeDone p
    if r.pf then (((p.wrF Reg.FAULT_PF 15 0 (min 65535 us)).wrF Reg.FAULT_PF 16 16 1).wrF Reg.FAULT_STAT 12 12 1) else p

/-! ### Recall (R362 to R364) -/

/-- The slot that a recall takes. -/
def recallSlot (last : Nat) (s : ShadowSlot × ShadowSlot) : Option ShadowSlot :=
  let ok (x : ShadowSlot) : Bool := x.ok && x.sseq ≤ last
  if ok s.1 && (!ok s.2 || s.2.sseq ≤ s.1.sseq) then some s.1 else if ok s.2 then some s.2 else none

/-- Recall every page: the SRAM and the pages that have no slot to recall. (DESIGN CHOICE, unsafe: assumption 8.) -/
def TarnSt.recall (t : TarnSt) : Tab PageVal × List Nat :=
  let last := lastComplete t.journal
  (t.shadow.foldl (fun m e => match recallSlot last e.2 with
      | some x => Tab.put (fun _ => PageVal.zero) m e.1 x.val
      | none => m) [],
   (t.shadow.filter fun e => (recallSlot last e.2).isNone).map Prod.fst)

/-- A loss of power cuts a running store short: the page being written is left with a bad CRC (R363). (DEDUCED, unsafe: assumption 44.) -/
def TarnSt.cut (t : TarnSt) : TarnSt :=
  match t.run with
  | none => t
  | some r => match r.todo with
    | [] => { t with run := none }
    | e :: _ =>
      let (x, y) := t.slots e.1
      let kx := if x.ok then x.sseq + 1 else 0
      let ky := if y.ok then y.sseq + 1 else 0
      let bad (z : ShadowSlot) : ShadowSlot := { z with sseq := r.sseq, ok := false }
      { t with run := none, shadow := Tab.put (fun _ => ({}, {})) t.shadow e.1 (if kx ≤ ky then (bad x, y) else (x, bad y)) }

/-! ### Passwords (R365, R366) -/

/-- The page of the password digests, and the digests by region × 2 + kind. -/
def passPage : Nat := 15744
def Plane.passwords (p : Plane) : List (Nat × List Byte) :=
  match p.tarn.page passPage with
  | .passwords l => l
  | _ => []

/-- Whether a path may use a region's content for a kind: no password, or one that is unlocked. -/
def Plane.regionOpen (p : Plane) (path region kind : Nat) : Bool :=
  (p.passwords.all fun e => e.1 != 2 * region + kind) || (p.path path).unlocks.contains (region, kind)

/-- Show the result and the failure count of a PW_CTRL operation. -/
def Plane.pwResult (p : Plane) (path data code : Nat) : Plane :=
  let idx := 2 * (data % 8) + data / 8 % 2
  p.pwr path Reg.TARN_PW_CTRL (BitVec.ofNat 32 (data % 16 + 4096 * code + 65536 * Tab.get (fun _ => 0) p.tarn.fails idx))

/-- A write of PW_CTRL (R365, R366). (DEDUCED, unsafe: assumption 43.) -/
def Plane.pwCtrl (p : Plane) (path : Nat) (tag : Tag) (data : Word) (now : Nat) : Plane :=
  let region := fld data 2 0
  let kind := fld data 3 3
  let idx := 2 * region + kind
  let pwd := leBytes 4 (p.prd path Reg.TARN_PWD).toNat ++ leBytes 4 (p.prd path (Reg.TARN_PWD + 4)).toNat
  let zero := pwd.all fun b => b == 0
  let held := (p.passwords.find? fun e => e.1 == idx).map Prod.snd
  let ans (code : Nat) (p : Plane) : Plane := p.pwResult path data.toNat code
  match fld data 9 8 with
  | 1 =>
    if region > 6 ∨ p.tarn.locked.contains idx then ans 3 p
    else if (match held with
        | some d => d == sm3 pwd
        | none => zero) then
      ans 1 ((p.updTarn fun t => { t with fails := Tab.put (fun _ => 0) t.fails idx 0 }).updPath path fun x =>
        { x with unlocks := (region, kind) :: x.unlocks.filter fun u => u != (region, kind) })
    else
      let n := Tab.get (fun _ => 0) p.tarn.fails idx + 1
      let p := p.updTarn fun t => { t with fails := Tab.put (fun _ => 0) t.fails idx n }
      if n < 8 then ans 2 p
      else
        let p := (p.updTarn fun t => { t with locked := insertNat idx t.locked }).evt Reg.TARN_EVT 10
        let p := { p with paths := p.paths.map fun (e : Nat × PathState) => (e.1, { e.2 with unlocks := e.2.unlocks.filter fun u => u != (region, kind) }) }
        ans 2 (p.stage 0x07 0 2 [BitVec.ofNat 8 region, BitVec.ofNat 8 kind, BitVec.ofNat 8 path, 0])
  | 2 =>
    if tag ≠ 0 then (p.violate path tag true 4 Reg.TARN_PW_CTRL now).pwResult path data.toNat 3
    else if region > 6 ∨ p.tarn.locked.contains idx ∨ !p.regionOpen path region kind then ans 3 p
    else
      let l := p.passwords.filter fun e => e.1 != idx
      let l := if zero then l else l ++ [(idx, sm3 pwd)]
      ans 1 (p.updTarn fun t => t.commitStore [(passPage, .passwords l)])
  | 3 => ans 1 (p.updPath path fun x => { x with unlocks := x.unlocks.filter fun u => u != (region, kind) })
  | _ => p.pwr path Reg.TARN_PW_CTRL (merge 0xF#32 (p.prd path Reg.TARN_PW_CTRL) data)

/-! ### The host window (R367) -/

/-- The byte offset of a window word on a path, and its region. -/
def Plane.winOffset (p : Plane) (path k : Nat) : Nat := p.prdF path Reg.TARN_WIN_BASE 14 0 * 2048 + 4 * k
def tarnRegion (off : Nat) : Nat :=
  let n := off / 4096
  if n < 2048 then 0 else if n < 12288 then 1 else if n < 12544 then 2 else if n < 14592 then 3 else if n < 15616 then 4
  else if n < 15872 then 5 else 6

/-- A word of the reserve region as committed. -/
def Plane.reserveWord (p : Plane) (off : Nat) : Word :=
  match p.tarn.page (off / 4096) with
  | .words w => Tab.get (fun _ => 0) w (off % 4096)
  | _ => 0

/-- What a read of a window word returns; nothing where it is refused, which counts in ERR_CNT. The layout of regions 2 to 4 is not
given: their words are free values. (DESIGN CHOICE, safe: assumption 16.) -/
def Plane.winRead (p : Plane) (path k : Nat) : Option Word :=
  let off := p.winOffset path k
  let r := tarnRegion off
  if r = 0 ∨ r = 1 ∨ r = 5 ∨ off ≥ 0x4000000 ∨ !p.regionOpen path r 0 then none
  else if r = 6 then some (p.reserveWord off)
  else some (Config.tarnWord p.id.num off p.tarn.lastSseq)

/-- Show what a path's host group holds. -/
def Plane.showGroup (p : Plane) (path code : Nat) : Plane :=
  let x := p.path path
  p.pwr path Reg.TARN_H_STAT (BitVec.ofNat 32 (code + 16 * x.hostOvf.toNat + 256 * (4 * x.hostGroup.length)))

/-- A write of a window word into the path's host group; one that passes 64 KB discards the whole group. -/
def Plane.winWrite (p : Plane) (path : Nat) (be : BitVec 4) (k : Nat) (data : Word) : Plane :=
  let off := p.winOffset path k
  if tarnRegion off ≠ 6 ∨ off ≥ 0x4000000 ∨ !p.regionOpen path 6 1 then p.err Reg.TARN_PAGE
  else
    let g := (p.path path).hostGroup
    let old := ((g.find? fun e => e.1 == off).map Prod.snd).getD (p.reserveWord off)
    let g := (g.filter fun e => e.1 != off) ++ [(off, merge (beMask be) old data)]
    if 4 * g.length > 65536 then
      ((p.updPath path fun x => { x with hostGroup := [], hostOvf := true }).showGroup path 3).evt Reg.TARN_EVT 11
    else (p.updPath path fun x => { x with hostGroup := g }).showGroup path (p.prdF path Reg.TARN_H_STAT 1 0)

/-- H_CTRL.COMMIT: the group is committed and stored. -/
def Plane.hostCommit (p : Plane) (path : Nat) : Plane :=
  let g := (p.path path).hostGroup
  let pgs := g.foldl (fun l e => insertNat (e.1 / 4096) l) []
  let vals := pgs.map fun n =>
    let w := match p.tarn.page n with
      | .words w => w
      | _ => []
    (n, PageVal.words (((g.filter fun e => e.1 / 4096 == n).foldl (fun w e => Tab.put (fun _ => (0 : Word)) w (e.1 % 4096) e.2) w)))
  let p := p.updTarn fun t => { (t.commitStore vals).request [countPage] with waitNext := insertNat path t.waitNext }
  (p.updPath path fun x => { x with hostGroup := [], hostOvf := false }).showGroup path 1

/-- H_CTRL.DISCARD: the group is dropped. -/
def Plane.hostDiscard (p : Plane) (path : Nat) : Plane :=
  (p.updPath path fun x => { x with hostGroup := [], hostOvf := false }).showGroup path 3

/-- A write of H_CTRL. -/
def Plane.hostCtrl (p : Plane) (path : Nat) (data : Word) : Plane :=
  if bit data 1 then p.hostDiscard path else if bit data 0 then p.hostCommit path else p

/-! ### Seals and notes (R375, R377) -/

/-- Stage a CHAIN_SEAL record, signed by the attestation slot. -/
def Plane.sealChain (p : Plane) (now : Nat) : Plane :=
  let slot := p.rdF Reg.CRYPTO_ATT 7 0
  let page := p.evr.fullPage.getD 0xFFFFFFFF
  let chain := if p.evr.fullPage.isSome then p.evr.prevChain else chainSeed p.id
  let head := leBytes 4 page ++ leBytes 4 0 ++ chain
  let r : Rec := { type := 4, tag := 0, sev := 0, cycles := p.evr.cycles, optime := p.evr.optime, flags := 2 * p.id.num,
                   seq := (p.evr.seqNext + (if p.evr.lost = 0 then 0 else 1)) % 2 ^ 32, body := List.replicate 108 0 }
  let sig := match p.attKey with
    | (0, mat) => p.signWith mat (r.bytes.take 20 ++ head)
    | _ => List.replicate 64 0
  let p := if p.attKey.1 = 0 then p.drawn else p
  let p := p.stage 0x04 0 0 (head ++ [BitVec.ofNat 8 slot, 0, 0, 0] ++ sig)
  { p with evr := { p.evr with sealTt := p.tt now } }

/-- A write of APP_CTRL (R377). -/
def Plane.appCtrl (p : Plane) (path : Nat) (tag : Tag) (data : Word) : Plane :=
  let p := p.pwr path Reg.EVR_APP_CTRL (data &&& 0xFFF#32)
  let len := fld data 8 0
  if !bit data 16 then p
  else if len = 0 ∨ len > 256 then p.err Reg.EVR_PAGE
  else p.stage 0x80 tag (fld data 10 9) (p.pbytes path (Reg.EVR_APP 0) len) (bit data 11 && tag != 0)

/-! ### Reading records (R372, R376) -/

/-- The surviving records in order, with the pages in which each begins and ends; a staged one has none yet. -/
def EvrSt.all (e : EvrSt) : List (Option (Nat × Nat) × Rec) :=
  (e.flushed.map fun x => (some (x.1, x.2.1), x.2.2)) ++ e.staged.map fun r => (none, r)

/-- The region a record begins in: 0 the founding area, 1 the circulating area. -/
def EvrSt.regionOf (e : EvrSt) (x : Option (Nat × Nat) × Rec) : Nat :=
  if ((x.1.map Prod.fst).getD e.page) < 2048 then 0 else 1

/-- Whether a record is private, and whether a tag may see it; T0 sees a private record of another tag as its header. -/
def Rec.priv (r : Rec) : Bool := r.flags % 2 == 1
def Rec.seen (r : Rec) (tag : Nat) : Bool := tag == 0 || r.tag.toNat == tag

/-- Answer a read operation. -/
def Plane.rdStat (p : Plane) (path code len : Nat) : Plane := p.pwr path Reg.EVR_RD_STAT (BitVec.ofNat 32 (code + 65536 * len))

/-- Load a record on a path. (DESIGN CHOICE, safe: assumption 17.) -/
def Plane.loadRec (p : Plane) (path tag : Nat) (x : Option (Nat × Nat) × Rec) : Plane :=
  let r := x.2
  let hidden := r.priv && r.tag.toNat != tag
  let b := r.bytes
  let p := p.updPath path fun y => { y with loaded := if hidden then b.take 20 else b, cursor := (r.seq + 1) % 2 ^ 32 }
  let p := p.pwr path Reg.EVR_RD_PAGE (match x.1 with
    | some (_, q) => BitVec.ofNat 32 q
    | none => Config.stagedPage r.seq)
  (p.pfill path (Reg.EVR_RD_DIG 0) 8 (sm3 b)).rdStat path (if hidden then 2 else 1) r.length

/-- The operation waiting on a path completes. -/
def Plane.readDone (p : Plane) (path : Nat) : Plane :=
  match (p.path path).recPending with
  | none => p
  | some k =>
    let op := k % 8
    let tag := k / 8
    let p := p.updPath path fun x => { x with recPending := none }
    let all := p.evr.all
    let moveTo (x : Option (Option (Nat × Nat) × Rec)) (p : Plane) : Plane := match x with
      | some y => (p.updPath path fun z => { z with cursor := y.2.seq }).rdStat path 1 0
      | none => p.rdStat path 5 0
    let locked (r : Nat) : Bool := !p.regionOpen path r 0
    match op with
    | 1 => if locked 0 then p.rdStat path 6 0 else moveTo (all.find? fun x => p.evr.regionOf x == 0) p
    | 2 => if locked 1 then p.rdStat path 6 0 else moveTo (all.find? fun x => p.evr.regionOf x == 1) p
    | 4 => match all.reverse.find? fun x => x.2.seq == (p.prd path Reg.EVR_RD_ARG).toNat with
      | some x => if locked (p.evr.regionOf x) then p.rdStat path 6 0 else moveTo (some x) p
      | none => p.rdStat path 5 0
    | _ =>
      let cur := (p.path path).cursor
      let rest := all.dropWhile fun x => x.2.seq != cur
      if rest = [] then
        if cur = p.evr.seqNext then p.rdStat path 3 0
        else match all.find? fun x => p.evr.regionOf x == 1 with
          | some x => (p.updPath path fun z => { z with cursor := x.2.seq }).rdStat path 4 0
          | none => p.rdStat path 3 0
      else match rest.find? fun x => x.2.seen tag with
        | none => (p.updPath path fun z => { z with cursor := p.evr.seqNext }).rdStat path 3 0
        | some x => if locked (p.evr.regionOf x) then p.rdStat path 6 0 else p.loadRec path tag x

/-- A write of RD_CTRL: its operation is PENDING until it completes. (DEDUCED, unsafe: assumption 43.) -/
def Plane.rdCtrl (p : Plane) (path : Nat) (tag : Tag) (data : Word) : Plane :=
  let p := p.pwr path Reg.EVR_RD_CTRL (data &&& 0x100#32)
  let op := fld data 2 0
  if op = 0 ∨ op > 4 then p
  else (p.updPath path fun x => { x with recPending := some (op + 8 * tag.toNat) }).rdStat path 7 0

/-! ### Meanings -/

/-- STORE_START (R359). -/
def execStoreStart (p : PlaneId) (s : State) : Host.Outcome State Fault Refusal := .next (s.upd p fun x => x.storeStart s.now)

/-- STORED (R360, R430): the power-fail store puts the plane in PF_HOLD. -/
def execStored (p : PlaneId) (s : State) : Host.Outcome State Fault Refusal := .next (s.upd p fun x => x.stored s.now)

/-- CHAIN_SEAL (R375). -/
def execChainSeal (p : PlaneId) (s : State) : Host.Outcome State Fault Refusal :=
  .next (if (s.plane p).running then s.upd p fun x => x.sealChain s.now else s)

/-- RECORD_LOAD_DONE (R376). -/
def execRecordLoadDone (p : PlaneId) (path : Fin 9) (s : State) : Host.Outcome State Fault Refusal :=
  .next (s.upd p fun x => x.readDone path.val)

end Sys2Proof.Machine
end

