-- ==== Sys2Proof/Machine/Grant.lean ====
section
/-!
DEFINITION. What a plane takes from the field side and from the other plane (chapter 10): the grant and the reports of the Authority Unit, blocks that
reach a plane, and joining.
-/
namespace Sys2Proof.Machine

/-! ### The grant (R250 to R254) -/

/-- The data path starts on a plane granted for the first time (R86, R420 step 9, R428): the Scan Engine starts as AUTO_START says, and
an intent launch is booked for each port whose intent is not OFF, from the claim stamp `c` on. -/
def Plane.startDataPath (p : Plane) (f : FieldSide) (c : Nat) : Plane :=
  if p.dataPath then p
  else
    let auto := p.cfgF Reg.SCAN_CFG 17 16
    let cmd := if p.scan.prog.isNone ∨ auto = 0 ∨ auto = 3 then [] else if p.start.cold ∨ auto = 2 then [3] else [2]
    let p := { p with dataPath := true, start := { p.start with opening := true }, scan := { p.scan with cmd := p.scan.cmd ++ cmd } }
    ((List.range 128).filter fun n => fld (p.cfg (Reg.PORTG_STATE (n / 8) (n % 8))) 1 0 != 0).foldl
      (fun p n => p.bookIntent f n (halfOf c)) p

/-- A new driver sends at once the standing firings from its claim stamp `c` on whose send time has passed (R118, R120, R250), each under
the count it had. -/
def State.resendStanding (s : State) (i : PlaneId) (c : Nat) : State :=
  let p := s.plane i
  let hb := halfOf s.now + (if s.now % 2048 = 0 then 1 else 2)
  let sent (x : LaunchSrc × Nat) : Bool := match x.1 with
    | .loop _ => decide (x.2 / 1024 * 1024 + 24 ≤ s.now)
    | _ => true
  let fires := (p.standingIn c (hb * 2048)).filter sent
  fires.foldl (fun s x =>
    let left := fires.countP fun y => y.1 == x.1 && decide (x.2 ≤ y.2)
    match x.1 with
    | .head j => s.transmit i x.1 (p.buildStanding (p.firingCopy j x.2) x.2 j ((p.head j).sched + 1 - left))
    | .loop l => s.transmit i x.1 (p.buildStanding (atCopy p.cfg (loopAct p.cfg l)) x.2 (0x8000 + l) ((p.loop l).seq + 1 - left))
    | _ => s) s

/-- Intents booked before the claim stamp `c` are booked again after it. -/
def Plane.rebookIntents (p : Plane) (f : FieldSide) (c : Nat) : Plane :=
  (p.weir.intentBooks.filter fun e => decide (e.2 < c)).foldl (fun p e => p.bookIntent f e.1 (halfOf c)) p

/-- The intents booked in the current or the next half-cycle are sent at once (R120, R150). -/
def State.sendIntents (s : State) (i : PlaneId) : State :=
  ((s.plane i).weir.intentBooks.filter fun e => decide (halfOf e.2 ≤ halfOf s.now + 1)).foldl (fun s e => s.sendIntent i e.1) s

/-- When the old holder's authority ends (R250): in an overlap at its expiry or at the revocation due at OVERLAP_MAX, and otherwise when it did. -/
def State.authorityEnd (s : State) (lost : Option Nat) (expiry g : Nat) : Nat :=
  if s.fs.au.old.isSome then min expiry (g + s.fs.au.ovl * 10000 * 16 * 4096 / max 1 s.fs.per) else lost.getD expiry

/-- The grant to plane `i` (R253), whose predecessor's authority ends at `e`. A plane granted as standby takes the admitted commands and sends at once
what is due. -/
def State.granted (s : State) (i : PlaneId) (g c e : Nat) : State :=
  let standby := (s.plane i).red.role == .standby
  let cause := (s.plane i).switchCause g
  let e := (s.plane i).gapFrom e
  let s := s.updBoth fun p =>
    let p := (p.wr64 Reg.RED_CLAIM_AT c).updRed fun r => { r with noAuth := false, lostAt := none }
    p.clearFlag 2 2 g
  let s := s.upd i fun p => ((p.setRole .active).updRed fun r => { r with claiming := false, ownExpired := false }).startDataPath s.fs c
  let s := s.updBoth fun p => p.rebookIntents s.fs c
  let s := s.sendIntents i
  let s := if standby then
      let (_, g1, g0) := (s.plane i).takeGap e c g
      let s := s.updBoth fun p => (p.takeGap e c g).1
      let s := s.updBoth fun p => p.wr64 Reg.RED_GAP_FROM e
      let s := s.upd i fun p =>
        let p := (p.bump Reg.RED_SW_CNT 15 0).evt Reg.RED_EVT 9
        p.wr Reg.RED_LAST_SW (BitVec.ofNat 32 (cause + 256 * min 255 g1 + 65536 * min 255 g0))
      let s := if cause = 4 then s.updBoth fun p =>
          ((p.wrF Reg.RED_DRILL_CTRL 10 8 2).evt Reg.RED_EVT 12).updRed fun r => { r with drill := none } else s
      let s := s.updBoth fun p => p.updRed fun r => { r with yield_ := none, heartClaim := false }
      let s := s.upd i.other fun p => p.updRed fun r => { r with kept := s.fs.au.old == some i.other }
      let s := ((s.plane i).dueSlots g).foldl (fun s n => s.sendSlot i n) s
      let s := s.resendStanding i c
      (List.range (s.plane i).weir.scanQ.length).foldl (fun s _ => s.weirDecide i) s
    else s
  s.renewNow i

/-- With the lease ended and no plane in step left to claim, the field side holds its outputs (R254). -/
def State.settleAuthority (s : State) : State :=
  let gone (p : Plane) : Bool := p.running && p.red.viewHolder == 0 && p.red.lostAt.isSome && !p.red.noAuth
  if (gone s.a || gone s.b) && !s.a.mayClaim s.fs.au.mode && !s.b.mayClaim s.fs.au.mode then s.updBoth fun p => p.noAuthority s.now else s

/-- A report of the Authority Unit reaches both planes (R247). -/
def State.takeReport (s : State) (payload : List Byte) (stamp : Nat) : State :=
  let n (o k : Nat) : Nat := ofLe (slice payload o k)
  let event := n 1 1
  let holder := n 2 1
  let before := (s.plane s.lead).red.viewHolder
  let was := (s.plane s.lead).red.lostAt
  let expiry := (s.plane s.lead).rd64 Reg.RED_EXPIRY
  let s := s.updBoth fun p =>
    let p := p.wr Reg.RED_LEASE (BitVec.ofNat 32 (holder % 4 + 16 * (n 3 1 % 2) + 256 * (n 3 1 / 16)))
    (p.wr64 Reg.RED_EXPIRY (n 8 8)).updRed fun r =>
      { r with viewHolder := holder, lastRenewed := if event = 1 ∨ event = 2 then stamp else r.lastRenewed }
  let ids : List PlaneId := [.a, .b]
  let holds (c : Nat) (i : PlaneId) : Bool := c == 3 || c == i.num + 1
  if event = 2 then
    match ids.filter fun i => holds holder i && !(holds before i && before != 3) with
    | i :: _ => s.granted i stamp (n 16 8) (s.authorityEnd was expiry stamp)
    | [] => s
  else if event = 6 then
    ids.foldl (fun s i => s.upd i fun p =>
      if p.red.claiming then (p.updRed fun r => { r with claiming := false }).evt Reg.RED_EVT 15 else p) s
  else if event = 3 ∨ event = 4 ∨ event = 5 then
    let lost := ids.filter fun i => holds before i && !holds holder i
    let s := if holder = 0 then s.updBoth fun p => p.updRed fun r => { r with lostAt := some stamp } else s
    (lost.foldl (fun s i => s.loseLease i (event == 3)) s).settleAuthority
  else s

/-! ### Blocks that reach a plane (R25, R118 to R120, R169, R247) -/

/-- A block at a plane. What an input event, a report or a lease report did at its stamp it has done in both planes already; a block that the field
side does not hold as sent takes effect here: a report where it has not yet, a sample of the tick, a change of the lease. (DESIGN CHOICE, unsafe: assumption 10.) -/
def State.planeBlock (s : State) (i : PlaneId) (bytes : List Byte) (b : BlockFields) : State :=
  let stamp := ofLe (slice b.payload 8 8)
  let standing := b.flags / 8 % 2 == 1
  let code := ofLe (b.payload.take 1)
  if s.fs.out.any fun o => o.bytes == bytes then s
  else if b.type = 0x81 then
    if b.path = 0x400 then s.takeReport b.payload b.stamp
    else if code < 0x14 ∧ s.now ≤ b.stamp + 4 then s.upd i fun p => p.meterInput b.payload b.stamp
    else s
  else if b.type ≠ 0x82 ∨ standing then s
  else match code with
    | 1 => s.upd i fun p => p.released b.slot b.seq
    | 2 => s.upd i fun p => p.started b.slot b.seq stamp
    | 3 => s.later s.now (.abortReport (slotFin b.slot) true)
    | 4 => s.later s.now (.abortReport (slotFin b.slot) false)
    | 5 => if b.flags / 2 % 2 = i.num then s.upd i fun p => (p.bump Reg.LFAB_REJECT_CNT 15 0).evt Reg.LFAB_EVT 11 else s
    | 6 => s.upd i fun p => p.failed b.slot b.seq 3 stamp
    | _ => s

/-- The field side sends a block towards a plane again (R30, R120): first on the other link, then on either, and after the second re-send it is lost. -/
def State.fieldResend (s : State) (i : PlaneId) (link lseq : Nat) : State :=
  match s.fs.out.find? fun o => o.plane == i && o.link == link && ofLe (slice o.bytes 2 2) == lseq with
  | none => s
  | some o =>
    let up (l : Nat) : Bool := (s.plane i).weir.linkUp.getD l false
    let on := if up (1 - link) then some (1 - link) else if up link then some link else none
    let s := s.field fun f => { f with out := f.out.filter fun x => !(x.plane == i && x.link == link && x.bytes == o.bytes) }
    match (if o.tries < 3 then on else none) with
    | some l => s.field fun f => f.sendTo i l (o.tries + 1) s.now fun n => resendBytes o.bytes n false
    | none => s.upd i fun p => (p.bump Reg.LFAB_LOST_CNT 15 0).evt Reg.LFAB_EVT 9

/-- A block over a link towards a plane: one with a bad CRC is counted, and it and those that a gap in LSEQ shows missing are sent again. -/
def State.planeReceive (s : State) (i : PlaneId) (link : Nat) (bytes : List Byte) : State :=
  let exp := (s.plane i).weir.lseqRx.getD link 0
  let expect (s : State) (n : Nat) : State := s.upd i fun p => p.updWeir fun w => { w with lseqRx := w.lseqRx.set link (n % 65536) }
  match blockRead bytes with
  | none => (expect (s.upd i fun p => p.bump (Reg.LFAB_CRC_RX link) 15 0) (exp + 1)).fieldResend i link exp
  | some b =>
    let gap := (b.lseq + 65536 - exp) % 65536
    let s := if gap < 32768 then (List.range gap).foldl (fun s k => s.fieldResend i link ((exp + k) % 65536)) (expect s (b.lseq + 1)) else s
    s.planeBlock i bytes b

/-- LFAB_BLOCK_RECEIVE (R119, R120): a block arrives at the field side or at a plane; a bad one is answered with a negative
acknowledgement or counted. -/
def execLfabBlockReceive (p : PlaneId) (toField : Bool) (link : Fin 2) (bytes : List Byte) (s : State) :
    Host.Outcome State Fault Refusal :=
  .next (if !(s.plane p).weir.linkUp.getD link.val false then s
    else match toField, blockRead bytes with
    | true, some b => s.fieldBlock p link.val bytes b
    | true, none =>
      let n := s.fs.expect p link.val
      (s.field fun f => f.setExpect p link.val (n + 1)).later (s.now + 1) (.lfabNakReceive p link n)
    | false, _ => s.planeReceive p link.val bytes)

/-! ### Joining (R256 to R258) -/

/-- The state digest (R256). -/
def Plane.stateDigest (p : Plane) : Nat :=
  crc32c (leBytes 4 (p.rd Reg.SYS_CFG_EPOCH).toNat ++
    (p.pointIdx.flatMap fun i => leBytes 4 (toTwos 32 (p.value i)) ++ [BitVec.ofNat 8 (p.quality i)]) ++
    (List.range 256).map fun n => BitVec.ofNat 8 (p.slot n).st.num)

/-- The digest with which a joining plane is judged: the last output digest while the Scan Engine runs, otherwise the state
digest. -/
def Plane.joinDigest (p : Plane) : Nat := if p.scan.st = .running then p.scan.digest else p.stateDigest

/-- Whether a page's seal is carried with the configuration (R45). -/
def sealCarried (a : Nat) : Bool := mirroredPage (a / 0x1000) && a % 0x1000 == 0x14

/-- Take the configuration image of the active plane (R256, step 2): what is applied, the program, the loops' banks, the released groups on their way,
and the seals; all of it goes to the plane's own Tarn. -/
def Plane.takeImage (j a : Plane) : Plane :=
  let grps := (a.grps.filter fun g => g.rel.isSome).map fun g => { g with acked := true }
  let j := { j with applied := a.applied, grps := grps, nextGrp := a.nextGrp,
                    cfgQ := a.cfgQ.filter fun q => grps.any fun g => g.id == q.grp,
                    loops := a.loops.map fun (e : Nat × LoopSt) => (e.1, { j.loop e.1 with bank := e.2.bank }),
                    scan := { j.scan with prog := a.scan.prog, staged := a.scan.staged } }
  let body (b : Option (List Byte)) (c : Tab Int) : PageVal := match b with
    | some b => .program b c
    | none => .zero
  let j := { j.commitRegs (a.applied.map Prod.fst) with
    tarn := (((j.commitRegs (a.applied.map Prod.fst)).tarn.commitObj progPage (body a.scan.prog a.scan.consts) true).commitObj stagedPage
      (body a.scan.staged []) true).commitStore [(bankPage, a.tarn.page bankPage)] }
  (j.regs.map Prod.fst ++ a.regs.map Prod.fst ++ j.cfgQ.map QWrite.addr).foldl (fun j k =>
    let j := if cfgMask k = 0 then j else j.showCfg k
    if sealCarried k && bit (a.rd k) 31 then j.wrF k 31 31 1 else j) j

/-- Take the dynamic state of the active plane (R257). -/
def Plane.takeDynamic (j a : Plane) : Plane :=
  let j := { j with points := a.points, heads := a.heads, loops := a.loops, sections := a.sections, scan := a.scan,
                    weir := { a.weir with subs := [], tx := [], lseqTx := j.weir.lseqTx, lseqRx := j.weir.lseqRx,
                                          linkUp := j.weir.linkUp, inject := none },
                    meter := a.meter, acct := a.acct, pulses := a.pulses, dataPath := a.dataPath,
                    mpe := { a.mpe with ranks := j.mpe.ranks } }
  ((j.wr Reg.SYS_CFG_EPOCH (a.rd Reg.SYS_CFG_EPOCH)).wr Reg.SYS_CFG_AT (a.rd Reg.SYS_CFG_AT)).wr (Reg.SYS_CFG_AT + 4)
    (a.rd (Reg.SYS_CFG_AT + 4))

/-- The first scan boundary at or after half-cycle `k`, by the applied PERIOD and PHASE; with none, half-cycle `k`. -/
def scanHalfFrom (g : Nat → Word) (k : Nat) : Nat :=
  let per := max 1 (fld (g Reg.SCAN_CFG) 7 0)
  ((searchTick (fun h => h % per == fld (g Reg.SCAN_CFG) 15 8) per k).getD k)

/-- A resynchronisation attempt fails (R256). -/
def Plane.resyncFailed (p : Plane) (tt : Nat) : Plane :=
  if p.red.role = .resync ∧ p.red.phase ≠ 0 then
    ((p.updRed fun r => { r with phase := 0, joinCut := none, retryAt := some (tt + 10000000000) }).bump Reg.RED_RESYNC_CNT 15 0).evt
      Reg.RED_EVT 16
  else p

/-- The bulk phase ends at a half-cycle boundary, and the active plane chooses the cut (R256, step 3): the first scan boundary at least one half-cycle
later. (DEDUCED, unsafe: assumption 34.) -/
def State.endBulk (s : State) : State :=
  [PlaneId.a, .b].foldl (fun s i =>
    let r := (s.plane i).red
    if (s.plane i).running ∧ r.role = .resync ∧ r.phase = 1 then
      let cut := scanHalfFrom (s.plane i.other).cfg (halfOf s.now + 1) * 2048
      s.upd i fun p => p.updRed fun r => { r with phase := 2, joinCut := some cut }
    else s) s

/-- Whether a resynchronisation has run out of its time (R256): the dynamic state by S + 16 half-cycles, catching up by S + 512. -/
def Plane.resyncOver (p : Plane) (now : Nat) : Bool :=
  p.running && p.red.role == .resync && p.red.joinCut.any fun c =>
    (p.red.phase == 2 && decide (c + 16 * 2048 < now)) || (p.red.phase == 3 && decide (c + 512 * 2048 < now))

/-- JOIN: the configuration image comes over in the bulk phase (R256). (DEDUCED, unsafe: assumption 34.) -/
def State.joinPlane (s : State) (i : PlaneId) : State :=
  let p := s.plane i
  let a := s.plane i.other
  let level (x : Plane) : Nat := (if x.boot.running = 0 then x.boot.fwA else x.boot.fwB).step
  if !(p.live && (p.red.role == .offline || p.red.role == .resync) && p.red.phase == 0 && a.isActive && p.red.syncUp &&
      p.rd Reg.FAULT_PLANE_FLT == 0 && p.start.restart.isNone) then s
  -- JOIN is refused where the running firmware differs in STEP_LVL (R346)
  else if level p ≠ level a then
    s.upd i fun p => ((p.setRole .resync).updRed fun r => { r with phase := 1 }).resyncFailed (p.tt s.now)
  else
    let s := s.upd i.other fun a => { a with grps := a.grps.map fun g => { g with acked := g.acked || g.rel.isSome } }
    s.upd i fun p => ((p.takeImage a).setRole .resync).updRed fun r => { r with phase := 1, joinCut := none, retryAt := none }

/-! ### Meanings -/

/-- JOIN (R256). -/
def execJoin (p : PlaneId) (s : State) : Host.Outcome State Fault Refusal := .next (s.joinPlane p)

/-- DYNAMIC_STATE_ARRIVAL (R256, R257): the dynamic state as at the cut has arrived, and the plane replays from it. -/
def execDynamicStateArrival (p : PlaneId) (s : State) : Host.Outcome State Fault Refusal :=
  let x := s.plane p
  .next (match x.red.joinCut with
    | some cut =>
      if x.red.role = .resync ∧ x.red.phase = 2 ∧ cut ≤ s.now then
        s.upd p fun x => (x.takeDynamic (s.plane p.other)).updRed fun r => { r with phase := 3 }
      else s
    | none => s)

/-- Whether a stamp is a boundary at which a joining plane may come into step: a scan boundary while the Scan Engine runs, otherwise one of a
half-cycle (R256). -/
def Plane.joinBoundary (p : Plane) (now : Nat) : Bool :=
  now % 2048 == 0 && (p.scan.st != .running || isScanHalf p.cfg (halfOf now))

/-- A plane that has come into step commits its retained area and its energy region (R257). -/
def Plane.commitJoined (p : Plane) (now : Nat) : Plane :=
  let p := if p.acct.running then p.meterCommit false else p
  if p.scan.stateId.isSome ∧ !p.scan.recalled then p.updTarn fun t => t.commitObj areaPage (p.areasVal none false now) true else p

/-- RESYNC_CAUGHT_UP (R239, R256): the plane has replayed to real time; at the boundary a matching digest makes it STANDBY, a differing one fails
the attempt. -/
def execResyncCaughtUp (p : PlaneId) (digest : Word) (s : State) : Host.Outcome State Fault Refusal :=
  let tt := s.ttNow
  .next (s.upd p fun x =>
    if x.red.role = .resync ∧ x.red.phase = 3 ∧ x.joinBoundary s.now then
      if x.joinDigest = digest.toNat then
        (((x.setRole .standby).updRed fun r => { r with phase := 0, joinCut := none, ownExpired := false }).evt Reg.RED_EVT 11).commitJoined s.now
      else x.resyncFailed tt
    else x)

/-- RESYNC_FAIL (R256). -/
def execResyncFail (p : PlaneId) (s : State) : Host.Outcome State Fault Refusal :=
  let tt := s.ttNow
  .next (s.upd p fun x => x.resyncFailed tt)

/-- RESYNC_RETRY (R256): JOIN is sent again 10 s after a failed attempt. -/
def execResyncRetry (p : PlaneId) (s : State) : Host.Outcome State Fault Refusal :=
  .next (match (s.plane p).red.retryAt with
    | some t => if t ≤ s.ttNow then s.joinPlane p else s
    | none => s)

/-- LEASE_REPORT (R247, R253, R254). -/
def execLeaseReport (payload : List Byte) (stamp : Nat) (s : State) : Host.Outcome State Fault Refusal :=
  .next (s.takeReport payload stamp)

/-- START_CLAIM (R255): plane A claims a vacant Authority Unit as soon as its data path may start, plane B where there is still no
holder 8 half-cycles after its own TIME_VALID; a plane that finds a holder joins. -/
def execStartClaim (p : PlaneId) (s : State) : Host.Outcome State Fault Refusal :=
  let x := s.plane p
  let waited : Bool := match x.red.validAt with
    | some t => decide (p = .a) || decide (t + 8 * 2048 ≤ s.now)
    | none => false
  .next (if x.live ∧ x.red.role = .offline ∧ x.rd Reg.FAULT_PLANE_FLT = 0 ∧ x.start.restart = none then
    if s.fs.au.holder.isSome then s.joinPlane p
    else if x.mpe.timeValid ∧ waited ∧ !x.start.zeroed ∧ !x.red.ownExpired ∧ !x.red.noAuth then s.sendClaim p else s
  else s)

end Sys2Proof.Machine
end

