-- ==== Sys2Proof/Machine/Rtc.lean ====
section
/-!
DEFINITION. The real-time clock (chapter 16): the calendar, setting and shifting the clock, alarm units, periodic units and PWRON.
-/
namespace Sys2Proof.Machine

/-! ### The calendar (R383) -/

/-- Days of a year after 2000, and of its months. -/
def leapYear (y : Nat) : Bool := y % 4 == 0 && y != 100
def yearDays (y : Nat) : Nat := if leapYear y then 366 else 365
def monthDays (y m : Nat) : Nat := if m = 2 ∧ leapYear y then 29 else [31, 28, 31, 30, 31, 30, 31, 31, 30, 31, 30, 31].getD (m - 1) 0

/-- Year and day of the year of a day number, and month and day of a day of the year. -/
def yearOf : Nat → Nat → Nat → Nat × Nat
  | 0, y, d => (y, d)
  | fuel + 1, y, d => if d < yearDays y then (y, d) else yearOf fuel (y + 1) (d - yearDays y)
def monthOf (y : Nat) : Nat → Nat → Nat → Nat × Nat
  | 0, m, d => (m, d)
  | fuel + 1, m, d => if d < monthDays y m then (m, d) else monthOf y fuel (m + 1) (d - monthDays y m)

/-- The fields of a time in seconds since 2000-01-01 00:00:00. -/
structure Civil where
  sec : Nat
  min : Nat
  hour : Nat
  day : Nat
  month : Nat
  year : Nat
  wday : Nat
deriving DecidableEq, Repr

/-- The calendar of a count of seconds. -/
def civil (t : Nat) : Civil :=
  let d := t / 86400
  let (y, doy) := yearOf 135 0 d
  let (m, dom) := monthOf y 11 1 doy
  { sec := t % 60, min := t / 60 % 60, hour := t / 3600 % 24, day := dom + 1, month := m, year := y, wday := (6 + d) % 7 }

/-- TIME and DATE of a count of seconds. -/
def timeWord (t : Nat) : Word := let c := civil t; BitVec.ofNat 32 (c.sec + 256 * c.min + 65536 * c.hour)
def dateWord (t : Nat) : Word :=
  let c := civil t
  BitVec.ofNat 32 (c.day + 256 * c.month + 65536 * c.year + 2 ^ 24 * c.wday)

/-- The seconds in the clock's range, after which it starts again. -/
def clockRange : Nat := 4291747200

/-- The seconds of a staged time and date, where it exists (R385). -/
def stagedSecs (time date : Word) : Option Nat :=
  let y := fld date 23 16
  let m := fld date 11 8
  let d := fld date 4 0
  if fld time 5 0 > 59 ∨ fld time 13 8 > 59 ∨ fld time 20 16 > 23 ∨ y > 135 ∨ m = 0 ∨ m > 12 ∨ d = 0 ∨ d > monthDays y m then none
  else
    let days := ((List.range y).map yearDays).sum + ((List.range (m - 1)).map fun i => monthDays y (i + 1)).sum + (d - 1)
    some (days * 86400 + fld time 20 16 * 3600 + fld time 13 8 * 60 + fld time 5 0)

/-- A WALL field (R370). -/
def wallBytes (secs sub : Nat) : List Byte := leBytes 8 (secs * 32768 + sub)

/-! ### Setting the clock (R385 to R389) -/

/-- Change a plane's clock. -/
def Plane.updRtc (p : Plane) (f : RtcSt → RtcSt) : Plane := { p with rtc := f p.rtc }

/-- Records can be staged only while the plane is powered. -/
def Plane.stageOn (p : Plane) (type : Nat) (tag : Tag) (sev : Nat) (body : List Byte) : Plane :=
  if p.phase = .unpowered then p else p.stage type tag sev body

/-- OSF is set, with its record (R389). -/
def Plane.setOsf (p : Plane) (cause : Byte) : Plane :=
  ((p.updRtc fun r => { r with osf := true }).evt Reg.RTC_EVT 24).stageOn 0x50 0 2 [cause, 0, 0, 0]

/-- A write of CTRL.WRITE_GO by T0. -/
def Plane.rtcWriteGo (p : Plane) (tag : Tag) : Plane :=
  if p.rtc.write.isSome ∨ p.rtc.shift.isSome then p.err Reg.RTC_PAGE
  else match stagedSecs (p.rd Reg.RTC_SET_TIME) (p.rd Reg.RTC_SET_DATE) with
    | none => p.err Reg.RTC_PAGE
    | some t => p.updRtc fun r => { r with write := some (t, tag) }

/-- A write of SHIFT by T0. -/
def Plane.rtcShift (p : Plane) (tag : Tag) (value : Nat) : Plane :=
  if p.rtc.write.isSome ∨ p.rtc.shift.isSome ∨ value % 65536 = 0 ∨ value % 65536 = 0x8000 then p.err Reg.RTC_PAGE
  else p.updRtc fun r => { r with shift := some (sext 16 value, tag), shifting := false }

/-- CLOCK_SET: the event and the record (R388). -/
def Plane.clockSet (p : Plane) (old new cause : Nat) (setter : Tag) : Plane :=
  (p.evt Reg.RTC_EVT 25).stageOn 0x03 0 1 (leBytes 8 old ++ leBytes 8 new ++ [BitVec.ofNat 8 cause, BitVec.ofNat 8 setter.toNat, 0, 0, 0, 0, 0, 0])

/-! ### Alarm units (R391 to R393) -/

/-- Registers of comparator `c` of unit `u`. -/
def cTime (u c : Nat) : Nat := if c = 0 then Reg.RTC_C0_TIME u else Reg.RTC_C1_TIME u
def cDate (u c : Nat) : Nat := if c = 0 then Reg.RTC_C0_DATE u else Reg.RTC_C1_DATE u
def cLast (u c : Nat) : Nat := if c = 0 then Reg.RTC_LAST_0 u else Reg.RTC_LAST_1 u

/-- Whether a comparator matches a time. -/
def Plane.almMatch (p : Plane) (u c t : Nat) : Bool :=
  let x := civil t
  let mask := if c = 0 then p.rdF (Reg.RTC_ALM_CFG u) 21 16 else p.rdF (Reg.RTC_ALM_CFG u) 29 24
  let tw := p.rd (cTime u c)
  let dw := p.rd (cDate u c)
  let ok (b have_ want : Nat) : Bool := mask.testBit b || have_ == want
  ok 0 x.sec (fld tw 5 0) && ok 1 x.min (fld tw 13 8) && ok 2 x.hour (fld tw 20 16) && ok 3 x.day (fld dw 4 0) &&
    ok 4 x.month (fld dw 11 8) && ok 5 x.year (fld dw 23 16) && (fld dw 30 24).testBit x.wday

/-- Whether a time is later than a comparator's LAST. -/
def Plane.almAfter (p : Plane) (u c t : Nat) : Bool := p.rd (cLast u c) == 0xFFFFFFFF#32 || decide ((p.rd (cLast u c)).toNat < t)

/-- A clock request of PWRON (R396): it extends to the later end. -/
def Plane.pwronReq (p : Plane) (now : Nat) : Plane :=
  let stop := p.tt now + max 1 (p.rdF Reg.RTC_PWRON 7 0) * 10000000
  p.updRtc fun r => { r with pwron := some (max stop (r.pwron.getD 0)) }

/-- A comparator fires at the time `secs` (R392). -/
def Plane.almFire (p : Plane) (u c secs : Nat) (late : Bool) (now : Nat) : Plane :=
  let p := (p.wrF (Reg.RTC_ALM_STAT u) (2 + c) (2 + c) 1).wrF (Reg.RTC_ALM_STAT u) (4 + c) (4 + c) late.toNat
  let p := (p.evt Reg.RTC_EVT (8 + u)).wr (cLast u c) (BitVec.ofNat 32 secs)
  let p := if p.rdF (Reg.RTC_ALM_CFG u) c c = 1 then p.wrF (Reg.RTC_ALM_STAT u) c c 0 else p
  if p.rdF (Reg.RTC_ALM_CFG u) 4 4 = 1 then p.pwronReq now else p

/-- The armed comparators. -/
def Plane.armedComps (p : Plane) : List (Nat × Nat) :=
  (List.range 14).flatMap fun u => ([0, 1].filter fun c => p.rdF (Reg.RTC_ALM_STAT u) c c == 1).map fun c => (u, c)

/-- The comparators at a second boundary: `o` the last second shown, `n` the one now shown. -/
def Plane.almBoundary (p : Plane) (o n now : Nat) : Plane :=
  p.armedComps.foldl (fun p e =>
    let (u, c) := e
    let missed := if o + 1 < n then searchTick (fun t => p.almMatch u c t && p.almAfter u c t) (n - o - 1) (o + 1) else none
    if missed.isSome then
      (p.almFire u c n true now).stageOn 0x51 (BitVec.ofNat 6 (p.rdF (Reg.RTC_ALM_CFG u) 13 8)) 1
        ([BitVec.ofNat 8 u, BitVec.ofNat 8 c, 0, 0] ++ wallBytes (o + 1) 0 ++ wallBytes n 0)
    else if p.almMatch u c n && p.almAfter u c n then p.almFire u c n false now else p) p

/-- A write of ALM_u.CTRL: arm, then disarm, comparators (R393, R397). -/
def Plane.almCtrl (p : Plane) (u : Nat) (data : Word) : Plane :=
  let p := [0, 1].foldl (fun p c => if bit data c then (p.wrF (Reg.RTC_ALM_STAT u) c c 1).wr (cLast u c) 0xFFFFFFFF#32 else p) p
  [0, 1].foldl (fun p c => if bit data (2 + c) then p.wrF (Reg.RTC_ALM_STAT u) c c 0 else p) p

/-! ### The second boundary -/

/-- A second boundary: a staged write applies, a shift starts or ends, then the comparators are matched (R385, R386, R391). (DEDUCED, unsafe: assumption 47.) -/
def Plane.second (p : Plane) (now : Nat) : Plane :=
  if p.rtc.stopped then p
  else
    let o := p.rtc.secs
    let wraps := o + 1 = clockRange
    let next := if wraps then 0 else o + 1
    match p.rtc.write with
    | some (n, setter) =>
      let was := p.rtc.osf
      let p := p.updRtc fun r => { r with secs := n, subTt := p.tt now, write := none, osf := false, lost := false }
      (p.clockSet (next * 32768) (n * 32768) (if was then 2 else 0) setter).almBoundary o n now
    | none =>
      let p := p.updRtc fun r => { r with secs := next, subTt := p.tt now }
      let p := match p.rtc.shift with
        | none => p
        | some (k, setter) =>
          if p.rtc.shifting then
            let p := (p.updRtc fun r => { r with shift := none, shifting := false }).evt Reg.RTC_EVT 26
            p.clockSet ((next * 32768 : Nat) - k : Int).toNat (next * 32768) 1 setter
          else p.updRtc fun r => { r with shifting := true }
      let p := if wraps then p.setOsf (BitVec.ofNat 8 (Config.free p.evr.seqNext)) else p
      p.almBoundary (if wraps then next else o) next now

/-! ### Meanings -/

/-- RTC_SECOND_BOUNDARY (R391). -/
def execRtcSecondBoundary (p : PlaneId) (s : State) : Host.Outcome State Fault Refusal := .next (s.upd p fun x => x.second s.now)

/-- CRYSTAL_STOP (R382, R389): an unpowered plane's clock stops; a powered one counts from its substitute. -/
def execCrystalStop (p : PlaneId) (s : State) : Host.Outcome State Fault Refusal :=
  .next (s.upd p fun x => if x.rtc.crystal then
    (x.updRtc fun r => { r with crystal := false, stopped := decide (x.phase = .unpowered) }).setOsf 1 else x)

/-- CRYSTAL_RESTART (R382). -/
def execCrystalRestart (p : PlaneId) (s : State) : Host.Outcome State Fault Refusal :=
  .next (s.upd p fun x => x.updRtc fun r =>
    { r with crystal := true, stopped := false, subTt := if r.stopped then x.tt s.now else r.subTt })

/-- PERIODIC_WAKE_FIRE (R395): unit 14 + k; a new PERIOD takes effect now. -/
def execPeriodicWakeFire (p : PlaneId) (k : Fin 2) (s : State) : Host.Outcome State Fault Refusal :=
  .next (s.upd p fun x =>
    let n := k.val
    if x.rdF (Reg.RTC_PER_CFG n) 0 0 = 0 then x
    else
      let x := x.evt Reg.RTC_EVT (22 + n)
      let x := x.updRtc fun r => { r with perTt := r.perTt.set n (r.perTt.getD n 0 + r.perLen.getD n 256 * 1000000000 / 256),
                                          perLen := r.perLen.set n (x.rdF (Reg.RTC_PER_PERIOD n) 24 0) }
      if x.rdF (Reg.RTC_PER_CFG n) 1 1 = 1 then x.pwronReq s.now else x)

/-- PWRON_REQUEST_END (R396): a clock's request, or the field side's wake request, ends. -/
def execPwronRequestEnd (source : Option PlaneId) (s : State) : Host.Outcome State Fault Refusal :=
  .next (match source with
    | some i => s.upd i fun p => p.updRtc fun r => { r with pwron := r.pwron.filter fun t => decide (p.tt s.now < t) }
    | none => s.field fun f => { f with pwron := f.pwron.filter fun t => decide (s.ttNow < t) })

end Sys2Proof.Machine
end

