-- ==== Sys2Proof/Machine/Basins.lean ====
section
/-!
DEFINITION. Basins and background work (chapter 17): allocation and power of Basins, arbitration of their masters, error
correction, the scrubber, the transparent test, and the background schedule.
-/
namespace Sys2Proof.Machine

/-! ### Allocation and power (R398 to R406) -/

/-- Words of a Basin. -/
def basinWords (b : Nat) : Nat := if b < 48 then 8192 else 131072

/-- Fixed Basins (R399). -/
def basinFixed (b : Nat) : Bool := b ≤ 23 || b == 48 || 52 ≤ b

/-- B_CFG as a word: owner, co-writer, readers, tag and PWR. -/
def basinCfg (owner cowriter readers pwr : Nat) : Word := BitVec.ofNat 32 (owner + 16 * cowriter + 256 * readers + 2 ^ 24 * pwr)

/-- A Basin as a plane's power-on leaves it: the allocation of R399, all spares of R409, OFF. (DESIGN CHOICE, unsafe: assumption 6.) -/
def basinReset (b : Nat) : BasinSt :=
  { cfg := if b ≤ 3 then basinCfg 5 15 0x10 0 else if b ≤ 12 ∨ b = 48 then basinCfg 3 4 0x20 0
      else if b ≤ 17 then basinCfg 2 4 0x20 0 else if b ≤ 23 then basinCfg 0 15 0x1FC 0
      else if 52 ≤ b then basinCfg 4 5 0 2 else basinCfg 15 15 0 0,
    spares := if b < 48 then 2 else 8 }

/-- A Basin of a plane, and replacing it. -/
def Plane.basin (p : Plane) (b : Nat) : BasinSt := Tab.get basinReset p.mem.basins b
def Plane.setBasin (p : Plane) (b : Nat) (x : BasinSt) : Plane :=
  { p with mem := { p.mem with basins := Tab.put basinReset p.mem.basins b x } }

/-- The place of a word in the contents. -/
def basinKey (b w : Nat) : Nat := b * 131072 + w

/-- Every word of a Basin becomes 0. -/
def Plane.basinZero (p : Plane) (b : Nat) : Plane :=
  { p with mem := { p.mem with words := p.mem.words.filter fun e => e.1 / 131072 != b } }

/-- The ticks that a clear takes, within the bound of R404. (DESIGN CHOICE, unsafe: assumption 6.) -/
def clearTicks (b : Nat) : Nat := if b < 48 then 2 else 27

/-- The power state that R406 asks of a Basin. -/
def Plane.basinTarget (p : Plane) (b : Nat) : Nat :=
  let c := (p.basin b).cfg
  if 52 ≤ b then (if p.red.role = .resync then 0 else 2)
  else if p.red.role = .active ∨ p.red.role = .standby then (if fld c 3 0 = 15 then 2 else 0)
  else if basinFixed b then 0
  else min 2 (fld c 25 24)

/-- Bring one Basin towards its power state (R405): from OFF it wakes and is cleared. -/
def Plane.settleBasin (p : Plane) (b : Nat) : Plane :=
  let x := p.basin b
  let t := p.basinTarget b
  if x.st = t ∨ (x.st = 3 ∧ t = 0) then p
  else if t = 2 then (p.basinZero b).setBasin b { x with st := 2, clearing := false, left := 0 }
  else if x.st = 2 ∧ t = 0 then p.setBasin b { x with st := 3, left := clearTicks b }
  else p.setBasin b { x with st := t }

/-- Bring every Basin towards its power state. (DEDUCED, unsafe: assumption 48.) -/
def Plane.settleBasins (p : Plane) : Plane := (List.range 64).foldl Plane.settleBasin p

/-- A write of B_CFG by T0 for the Basin that the path selects (R404, R406): `mask` are the bits written. (DEDUCED, unsafe: assumption 48.) -/
def Plane.bCfgWrite (p : Plane) (path : Nat) (mask data : Word) : Plane :=
  let b := p.prdF path Reg.MEM_SEL 5 0
  let x := p.basin b
  let new := merge (mask &&& 0x03FFFFFF#32) x.cfg data
  let code (hi lo : Nat) : Bool := fld new hi lo ≤ 9 || fld new hi lo == 15
  if basinFixed b ∨ !code 3 0 ∨ !code 7 4 ∨ fld new 23 18 = 63 then p.err Reg.MEM_PAGE
  else
    let held := p.red.role == .active || p.red.role == .standby
    let p := if held ∧ bit mask 24 then p.err Reg.MEM_PAGE else p
    let new := if held then setFld new 25 24 (fld x.cfg 25 24) else new
    let retag := fld new 23 18 != fld x.cfg 23 18
    let p := if fld new 23 0 = fld x.cfg 23 0 then p else p.evt Reg.MEM_EVT 12
    let clear := retag && x.st != 2 && x.st != 3
    let p := if clear then p.basinZero b else p
    (p.setBasin b { x with cfg := new, clearing := x.clearing || clear, left := if clear then clearTicks b else x.left }).settleBasin b

/-- A tick of the clears and wakes under way: those that end, by Basin. -/
def Plane.clearsDue (p : Plane) : List Nat :=
  (p.mem.basins.filter fun (e : Nat × BasinSt) => (e.2.clearing || e.2.st == 3) && e.2.left ≤ 1).map Prod.fst

/-- One tick less to go for each clear and wake under way. -/
def Plane.clearTick (p : Plane) : Plane :=
  { p with mem := { p.mem with basins := p.mem.basins.map fun (e : Nat × BasinSt) =>
      if e.2.clearing || e.2.st == 3 then (e.1, { e.2 with left := e.2.left - 1 }) else e } }

/-! ### Arbitration (R401 to R403, R407) -/

/-- Whether R399 lets a master make an access. -/
def BasinSt.permits (x : BasinSt) (m : Nat) (write : Bool) : Bool :=
  m == 9 || fld x.cfg 3 0 == m || fld x.cfg 7 4 == m || (!write && bit x.cfg (8 + m))

/-- LAST_ERR (R417). -/
def Plane.memErr (p : Plane) (b w kind : Nat) : Plane := p.wr Reg.MEM_LAST_ERR (BitVec.ofNat 32 (b + 256 * w + 2 ^ 28 * kind))

/-- A conflict of a master, which only the 1 MB Basins count. -/
def Plane.conflict (p : Plane) (b m : Nat) : Plane :=
  if b < 48 then p
  else
    let x := p.basin b
    p.setBasin b { x with conf := x.conf.set m (satInc 65535 (x.conf.getD m 0)) }

/-- Answer a master. -/
def Plane.basinAnswer (p : Plane) (m : Nat) (a : BasinAnswer) : Plane :=
  { p with mem := { p.mem with answers := p.mem.answers ++ [(m, a)] } }

/-- A single-bit error was corrected. -/
def Plane.memCe (p : Plane) (b w : Nat) : Plane := ((p.bump Reg.MEM_CE_CNT 15 0).evt Reg.MEM_EVT 8).memErr b w 1

/-- A double-bit error was found by a read (source 0) or the scrubber (1). -/
def Plane.memUe (p : Plane) (b w source m : Nat) : Plane :=
  let p := ((p.bump Reg.MEM_UE_CNT 15 0).evt Reg.MEM_EVT 9).memErr b w 2
  p.stage 0x58 (BitVec.ofNat 6 (fld (p.basin b).cfg 23 18)) 3
    ([BitVec.ofNat 8 b, BitVec.ofNat 8 source, BitVec.ofNat 8 m, 0] ++ leBytes 4 w)

/-- The request that a Basin serves: the permitted one of the highest priority. -/
def basinWinner (x : BasinSt) (reqs : List BasinReq) : Option BasinReq :=
  (reqs.filter fun r => x.st == 0 && !x.clearing && x.permits r.master r.write).foldl
    (fun w r => match w with
      | some v => if r.master.val < v.master.val then some r else some v
      | none => some r) none

/-- A refused access (R403). -/
def Plane.basinRefuse (p : Plane) (m : Nat) : Plane := ((p.bump Reg.MEM_REFUSED_CNT 15 0).evt Reg.MEM_EVT 13).basinAnswer m .refused

/-- The served access. -/
def Plane.basinServe (p : Plane) (b : Nat) (r : BasinReq) : Plane :=
  let w := r.word % basinWords b
  if r.write then
    { p.basinAnswer r.master .done with mem :=
        { (p.basinAnswer r.master .done).mem with words := Tab.put (fun _ => 0) p.mem.words (basinKey b w) r.data } }
  else
    let v := Tab.get (fun _ => (0 : BitVec 64)) p.mem.words (basinKey b w)
    if r.ecc = 0 then p.basinAnswer r.master (.data v)
    else if r.ecc = 1 then (p.memCe b w).basinAnswer r.master (.data v)
    else (p.memUe b w 0 r.master).basinAnswer r.master .uncorrectable

/-- A request that loses against the served one (R401, R402). -/
def Plane.basinLose (p : Plane) (b : Nat) (served r : BasinReq) : Plane :=
  let w := r.word % basinWords b
  let p := p.conflict b r.master
  if r.write && served.write && w == served.word % basinWords b then
    (((p.bump Reg.MEM_COLLIDE_CNT 15 0).evt Reg.MEM_EVT 10).memErr b w 3).basinAnswer r.master .collided
  else p.basinAnswer r.master .stalled

/-- One cycle of a Basin: each request is served, stalled, dropped or refused. -/
def Plane.basinCycle (p : Plane) (b : Nat) (reqs : List BasinReq) : Plane :=
  let x := p.basin b
  let win := basinWinner x reqs
  reqs.foldl (fun p r =>
    if x.st ≠ 0 ∨ x.clearing ∨ !x.permits r.master r.write then p.basinRefuse r.master
    else match win with
      | some v => if v = r then p.basinServe b r else p.basinLose b v r
      | none => p) { p with mem := { p.mem with answers := [] } }

/-- BASIN_ACCESS (R401 to R403, R407): one memory-clock cycle of requests. A refused hardware master, and a double-bit error in a
fixed Basin, raise a plane fault. -/
def execBasinAccess (p : PlaneId) (b : Fin 64) (reqs : List BasinReq) (s : State) : Host.Outcome State Fault Refusal :=
  let x := s.plane p
  let s := s.upd p fun x => x.basinCycle b reqs
  let answers := (s.plane p).mem.answers
  let master := answers.any fun (e : Nat × BasinAnswer) => e.2 == .refused && (e.1 < 5 || e.1 == 9)
  let ue := answers.any fun (e : Nat × BasinAnswer) => e.2 == .uncorrectable
  let s := if master ∧ x.phase ≠ .unpowered then s.planeFault p 5 else s
  .next (if ue ∧ basinFixed b then s.planeFault p 4 else s)

/-- BASIN_CLEAR_DONE (R404, R405): CLEARING and WAKING end. -/
def execBasinClearDone (p : PlaneId) (b : Fin 64) (s : State) : Host.Outcome State Fault Refusal :=
  .next (s.upd p fun x =>
    let y := x.basin b
    if y.clearing ∨ y.st = 3 then (x.basinZero b).setBasin b { y with clearing := false, left := 0, st := if y.st = 3 then 0 else y.st }
    else x)

/-- SCRUB (R408): one pass over a Basin that is ON; `found` are the words with an error, and whether it is a double-bit one. -/
def execScrub (p : PlaneId) (b : Fin 64) (found : List (Nat × Bool)) (s : State) : Host.Outcome State Fault Refusal :=
  let x := s.plane p
  .next (if (x.basin b).st ≠ 0 ∨ !x.bkgOn 0 then s
  else
    let s := s.upd p fun x =>
      let last := max (Tab.get (fun _ => 0) x.bkg.scrubTt b) x.start.releaseTt
      let x := found.foldl (fun x (e : Nat × Bool) =>
        if e.2 then x.memUe b (e.1 % basinWords b) 1 9 else x.memCe b (e.1 % basinWords b)) x
      let x := { x with bkg := { x.bkg with scrubTt := Tab.put (fun _ => 0) x.bkg.scrubTt b (x.tt s.now) } }
      x.bkgDone 0 (decide (last + 300000000000 < x.tt s.now)) s.now
    if basinFixed b ∧ found.any Prod.snd then s.planeFault p 4 else s)

/-- REGION_TEST (R410, R411): the region at TEST_POS is tested; a failure takes its Basin out of use. -/
def execRegionTest (p : PlaneId) (pass : Bool) (s : State) : Host.Outcome State Fault Refusal :=
  let x := s.plane p
  let b := x.rdF Reg.BKG_TEST_POS 5 0
  let r := x.rdF Reg.BKG_TEST_POS 29 16
  let last := r + 1 = basinWords b / 8
  .next (if !x.bkgOn 1 then s
  else
    let s := s.upd p fun x =>
      let x := x.bkgDone 1 (x.bkgLate 1 s.now) s.now
      let x := x.wr Reg.BKG_TEST_POS (BitVec.ofNat 32 ((if last then (b + 1) % 64 else b) + 65536 * (if last then 0 else r + 1)))
      let x := if last ∧ b = 63 then x.bump Reg.BKG_TEST_PASS 15 0 else x
      if pass then x
      else
        let x := ((x.setBasin b { x.basin b with fault := true }).evt Reg.MEM_EVT 11).memErr b (8 * r) 4
        x.stage 0x59 (BitVec.ofNat 6 (fld (x.basin b).cfg 23 18)) 3 ([BitVec.ofNat 8 b, 0] ++ leBytes 2 r)
    if !pass ∧ basinFixed b then s.planeFault p 4 else s)

/-! ### The background schedule (R412 to R415) -/

/-- Whether a PSE state change of a port's group is booked in the present half-cycle: no leakage check of the group runs in it (R414). -/
def FieldSide.groupBooked (f : FieldSide) (port now : Nat) : Bool :=
  f.lq.any fun l => 0x100 ≤ l.path && l.path < 0x180 && (l.path - 0x100) / 8 == port / 8 && l.tick / 2048 == now / 2048

/-- LEAKAGE_CHECK (R414): a result is taken only for a port in DISABLED, DENIED, SLEEP or SHED, in a half-cycle in which its group has no
PSE state change booked. -/
def execLeakageCheck (port : Fin 128) (result : LeakResult) (s : State) : Host.Outcome State Fault Refusal :=
  let st := (s.fs.port port).st
  .next (if !(st == .disabled || st == .denied || st == .sleep || st == .shed) || !(s.plane s.lead).bkgOn 3 ||
      s.fs.groupBooked port s.now then s
  else if result = .abandoned then s
  else
    let s := s.updBoth fun p =>
      let last := max (Tab.get (fun _ => 0) p.bkg.leakTt port) p.start.releaseTt
      let p := { p with bkg := { p.bkg with leakTt := Tab.put (fun _ => 0) p.bkg.leakTt port (p.tt s.now) } }
      (p.bkgDone 3 (decide (last + 60000000000 < p.tt s.now)) s.now).bkgBlock
    if result = .fail then s.portFault port 4 else s)

/-- Set or clear a field flag as its condition holds. -/
def Plane.fieldFlag (p : Plane) (n : Nat) (on : Bool) (now : Nat) : Plane := if on then p.raise 1 n now else p.clearFlag 1 n now

/-- TELEMETRY (R412, R435): fans, temperatures and converter cells. AVAIL falls at once where a cell has left service; a temperature acts
at the next half-cycle boundary (R158). -/
def execTelemetry (t : Telemetry) (s : State) : Host.Outcome State Fault Refusal :=
  if !(s.plane s.lead).bkgOn 5 then .next s
  else
    let intake := if t.intake.toNat < 128 then t.intake.toNat else 0
    let lost := s.fs.power.cells &&& ~~~t.cells
    let s := s.field fun f => { f with power := { f.power with cells := t.cells, intake := intake } }
    let s := s.updBoth fun p =>
      let p := p.wr Reg.FAULT_FANS (BitVec.ofNat 32 (t.run.toNat + 256 * t.fitted.toNat))
      let p := p.wr Reg.FAULT_TEMP (BitVec.ofNat 32 (t.intake.toNat + 256 * t.hot.toNat))
      let p := (List.range 4).foldl (fun p i => p.fieldFlag i (!t.cells.getLsbD i) s.now) p
      let p := p.fieldFlag 4 (t.fitted &&& ~~~t.run != 0) s.now
      let p := p.fieldFlag 5 (decide (intake > 50) || s.fs.power.hot) s.now
      (p.bkgDone 5 (p.bkgLate 5 s.now) s.now).bkgBlock
    .next (if lost = 0 then s else s.availFall)

/-- A write of RUN.NOW starts activities outside their period (R418). -/
def Plane.runNow (p : Plane) (acts : Nat) : Plane :=
  { p with bkg := { p.bkg with run := (below 6 fun a => acts.testBit a).foldl (fun l a => insertNat a l) p.bkg.run } }

/-- Whether an enabled activity has not completed within twice its period; scrubbing by ON Basin, the leakage check by unpowered
port (R415). -/
def Plane.overdue (p : Plane) (f : FieldSide) (act now : Nat) : Bool :=
  let old (t : Tab Nat) (k ns : Nat) : Bool := decide (max (Tab.get (fun _ => 0) t k) p.start.releaseTt + 2 * ns < p.tt now)
  (act == 4 || bit (p.rd Reg.BKG_CFG) act) &&
    (if act = 0 then (List.range 64).any fun b => (p.basin b).st == 0 && old p.bkg.scrubTt b 300000000000
     else if act = 3 then (List.range 128).any fun n =>
       let st := (f.port n).st
       (st == .disabled || st == .denied || st == .sleep || st == .shed) && old p.bkg.leakTt n 60000000000
     else decide (p.bkgLast act + 2 * p.bkgPeriod act < p.tt now))

/-- BKG_DEFERRED (R415). -/
def execBkgDeferred (p : PlaneId) (act : Fin 6) (s : State) : Host.Outcome State Fault Refusal :=
  .next (s.upd p fun x =>
    if x.overdue s.fs act s.now ∧ x.rdF Reg.BKG_DEFER act act = 0 then
      let at_ := Tab.get (fun _ => 0) x.bkg.doneAt act
      let x := ((x.wrF Reg.BKG_DEFER act act 1).bump Reg.BKG_DEFER_CNT 15 0).evt Reg.BKG_EVT 8
      x.stage 0x5B 0 2 ([BitVec.ofNat 8 act, 0, 0, 0] ++ leBytes 8 at_)
    else x)

end Sys2Proof.Machine
end

