-- ==== Sys2Proof/Machine/Startup.lean ====
section
/-!
DEFINITION. Start-up, restart and faults (chapter 18): shedding after a supply loss, the power-fail sequence, the start-up order, recall,
plane and module restarts, fault flags and the alarm relay.
-/
namespace Sys2Proof.Machine

/-! ### Shedding and the power-fail sequence (R161, R429, R430) -/

/-- Change a plane's start-up state. -/
def Plane.updStart (p : Plane) (f : StartSt → StartSt) : Plane := { p with start := f p.start }

/-- Steps 1 to 4 of the power-fail sequence in a plane, after the interval's early close; `shed` is the shed stamp, 0 where the
plane's own supply failed (R429, R430). -/
def Plane.powerFail (p : Plane) (clock : Option Nat) (slwAt shed now : Nat) : Plane :=
  let p := p.updStart fun x => { x with pfAt := some now }
  let p := (p.breakAll (fun x => x.st != .launched) 1 now).stopStanding (fun _ => true) 1 now
  let p := p.updWeir fun w => { w with supplyShed := true }
  let p := p.meterCommit true
  let p := if p.scan.stateId.isSome ∧ !p.scan.recalled then
      { p with tarn := p.tarn.commitObj areaPage (p.areasVal clock true now) false } else p
  let p := (p.stage 0x02 0 1 (leBytes 8 slwAt ++ leBytes 8 shed)).sealChain now
  let p := p.flush.wr Reg.FAULT_PF 0
  p.updTarn fun t => { t with nextAll := true, nextPf := true, lastPfOk := false }

/-- A running plane starts its power-fail sequence, unless it has; the interval closes early (R186, R188). -/
def State.pfStart (s : State) (i : PlaneId) (shed : Nat) : State :=
  if !(s.plane i).live then s
  else
    let s := if (s.plane i).acct.running then s.closeInterval i true else s
    let s := if shed = 0 then s else s.upd i fun p => p.evt Reg.TACC_EVT 11
    let clock := (s.plane s.lead).clockRead s.now
    s.upd i fun p => p.powerFail clock s.fs.power.slwAt shed s.now

/-- The ports are shed (R161, R117): every port not DISABLED, FAULT or SHED, in shed order; both planes start the power-fail
sequence at this stamp. -/
def State.shedAll (s : State) : State :=
  let s := (shedOrder s.cfg).foldl (fun s n =>
    let st := (s.fs.port n).st
    if st = .disabled ∨ st = .fault ∨ st = .shed then s else s.shedPort n false) s
  let s := s.field fun f => { f with power := { f.power with shed := true, shedAt := s.now, ride := false, rideEnd := none, frozen := none } }
  let s := s.updBoth fun p => (p.wr64 Reg.PWR_SHED_AT s.now).evt Reg.PWR_EVT 9
  let s := s.withdraw fun _ => true
  (s.pfStart .a s.now).pfStart .b s.now

/-- SHED (R161): the tick after the end of ride-through. With two phases good the module goes on in partial mode under an overload
shed; otherwise the ports are shed. -/
def execShed (s : State) : Host.Outcome State Fault Refusal :=
  .next (match s.fs.power.rideEnd with
    | none => s
    | some t =>
      if s.now ≤ t ∨ !s.fs.power.slw then s
      else if s.goodPhases = 2 ∧ s.supplyMode ≠ 1 then
        let s := s.field fun f => { f with power := { f.power with partial_ := true, ride := false, rideEnd := none, frozen := none } }
        (s.field fun f => { f with power := { f.power with vmin := s.vminNow } }).availFall
      else
        -- a module restart still waiting is replaced (R432)
        (s.field fun f => { f with restart := none }).shedAll)

/-! ### Power-on of a plane (R419, R422 to R424) -/

/-- Bits of a word that the backup domain keeps (R381). -/
def backupMask (a : Nat) : Word :=
  match regAt a with
  | some ⟨r, _, _⟩ => BitVec.ofNat 32 r.backup
  | none => 0

/-- The registers a plane's power-on keeps: the backup domain's, and what the last power-fail store showed (FAULT.PF). -/
def keptRegs (regs : Tab Word) (backup : Bool) : Tab Word :=
  let t : Tab Word := if backup then regs.foldl (fun t (e : Nat × Word) =>
      let m := backupMask e.1
      if m = 0 then t else Tab.put regDefault t e.1 (merge m (regDefault e.1) e.2)) [] else []
  Tab.put regDefault t Reg.FAULT_PF (Tab.get regDefault regs Reg.FAULT_PF)

/-- The clock's readings move with a new count of true time. -/
def RtcSt.rebase (r : RtcSt) (old new : Nat) : RtcSt :=
  let mv (t : Nat) : Nat := new - (old - t)
  { r with subTt := mv r.subTt, perTt := r.perTt.map mv, pwron := r.pwron.map fun t => new + (t - old) }

/-- The clock's domain has lost its supply (R381, R389): first power-on (0) or domain loss (2). -/
def RtcSt.lose (r : RtcSt) (tt : Nat) : RtcSt := { crystal := r.crystal, subTt := tt, perTt := [tt, tt] }

/-- A plane as its reset is released: all volatile state is gone; Tarn's cells, the fuses, the firmware slots and the backup domain
keep theirs. True time counts on, taken from the other plane where that runs (R90). -/
def Plane.powerOn (p : Plane) (tt16 per now : Nat) (cause : StartCause) (cold backup : Bool) : Plane :=
  let old := p.tt now
  let new := (tt16 + tickOf now * per / 4096) / 16
  let t := p.tarn.cut
  { id := p.id, phase := .starting, regs := keptRegs p.regs backup,
    mpe := { tt16 := tt16, ttCycle := cycleOf now, per := per, own := per, last := per },
    tarn := { shadow := t.shadow, journal := t.journal, lastSseq := t.lastSseq, lastPfOk := t.lastPfOk },
    keys := { bank := p.keys.bank, draws := p.keys.draws, cert := p.keys.cert },
    boot := { p.boot with load := none, peer := none },
    rtc := { (if backup then p.rtc.rebase old new else p.rtc.lose new) with stopped := false },
    mem := { basins := p.mem.basins.foldl (fun t (e : Nat × BasinSt) =>
      Tab.put basinReset t e.1 { basinReset e.1 with spares := e.2.spares }) [] },
    start := { cause := cause, cold := cold, releaseTt := new, autos := p.start.autos, rtcNew := !backup } }

/-- A plane that has stopped is no longer present to the other (R262). -/
def State.peerGone (s : State) (i : PlaneId) : State := s.upd i.other fun p => p.wrF Reg.RED_SYNC 1 1 0

/-- Reset one plane while the field side runs. -/
def State.resetPlane (s : State) (i : PlaneId) (cause : StartCause) : State :=
  let o := s.plane i.other
  let tt := if o.phase = .unpowered then (s.plane i).mpe.tt16 else o.mpe.tt16
  (s.upd i fun p => p.powerOn tt s.fs.per s.now cause false true).peerGone i

/-- Reset the field side and both planes (R419, R427, R431). -/
def State.resetModule (s : State) (cause : StartCause) (cold : Bool) (backup : PlaneId → Bool) : State :=
  let tt := max s.a.mpe.tt16 s.b.mpe.tt16
  { s with a := s.a.powerOn tt s.fs.per s.now cause cold (backup .a), b := s.b.powerOn tt s.fs.per s.now cause cold (backup .b),
           fs := { per := s.fs.per } }

/-! ### Recall (R362 to R364, R420 step 4) -/

/-- The region of a Tarn page (R37). -/
def pageRegion (n : Nat) : Nat :=
  if n < 2048 then 0 else if n < 12288 then 1 else if n < 12544 then 2 else if n < 14592 then 3 else if n < 15616 then 4
  else if n < 15872 then 5 else 6

/-- Pages of regions 2 to 5 that a zeroed page of their region takes with it (R424): whole regions 2 to 4, apart from the page of the
counts, and the key slots of region 5. -/
def zeroedWith (bad : List Nat) (n : Nat) : Bool :=
  let r := pageRegion n
  n != countPage && ((2 ≤ r && r ≤ 4) || (15616 ≤ n && n < 15744)) && bad.any fun b => pageRegion b == r

/-- Step 4: the journal is read and every page recalled. (DEDUCED, unsafe: assumption 51.) -/
def Plane.recall (p : Plane) : Plane :=
  let (sram, bad) := p.tarn.recall
  let lost := (sram.map Prod.fst).filter (zeroedWith bad)
  let p := p.updTarn fun t => { t with sram := sram }
  let p := if lost = [] then p else p.updTarn fun t => t.commit (lost.map fun n => (n, PageVal.zero))
  let p := p.updStart fun x => { x with recallBad := bad, zeroed := bad.any fun n => 2 ≤ pageRegion n && pageRegion n ≤ 4 }
  let p := (p.wr64 Reg.TARN_STORE_SEQ (lastComplete p.tarn.journal)).wrF Reg.TARN_STAT 10 10 p.tarn.lastPfOk.toNat
  let p := p.updTarn fun t => { t with lastPfOk := false }
  if bad = [] then p
  else
    let p := (p.wrF Reg.TARN_STAT 9 9 1).evt Reg.TARN_EVT 9
    p.wr Reg.TARN_BAD_PAGES (BitVec.ofNat 32 (bad.length + 65536 * bad.foldl min 16383))

/-- The register page whose image a Tarn page holds. -/
def imagePage (n : Nat) : Option Nat :=
  if n = 14593 ∨ n = 14594 then some (n - 14592) else if 12544 ≤ n ∧ n < 14336 then some (n - 12544) else none

/-- Step 7: every field whose reset is Tarn takes its recalled value (R21, R420). -/
def Plane.loadRegs (p : Plane) : Plane :=
  p.tarn.sram.foldl (fun p (e : Nat × PageVal) =>
    match imagePage e.1, e.2 with
    | some pg, .words w => w.foldl (fun p (x : Nat × Word) =>
        let a := pg * 4096 + x.1
        let put (t : Tab Word) : Tab Word := Tab.put regDefault t a (merge (tarnMask a) (Tab.get regDefault t a) x.2)
        let p := { p with regs := put p.regs }
        if cfgMask a = 0 then p else { p with applied := put p.applied }) p
    | _, _ => p) p

/-- The recorder continues from its recalled pages (R369, R374, R424). -/
def Plane.loadRecorder (p : Plane) : Plane :=
  let bad := p.start.recallBad.any fun n => pageRegion n ≤ 1
  let pages := sortBy (fun e : Nat × Nat × List Byte × List (Nat × Nat × Rec) => e.1) (p.tarn.sram.filterMap fun (e : Nat × PageVal) =>
    match e.2 with
    | .records n fill chain r => some (n, fill, chain, r)
    | _ => none)
  let recs : List (Nat × Nat × Rec) := pages.flatMap fun e => e.2.2.2
  let (cycles, optime) := match p.tarn.page countPage with
    | .counts c o _ _ => (c, o)
    | _ => (0, 0)
  let newest := recs.getLast?.map fun r => r.2.2
  let base : EvrSt := { flushed := recs, cycles := cycles,
                        seqNext := (newest.map fun r => (r.seq + 1) % 2 ^ 32).getD 0,
                        optime := max optime ((newest.map Rec.optime).getD 0) + 1 }
  let evr := match pages.getLast? with
    | none => base
    | some (n, fill, chain, _) =>
      let prev := ((pages.find? fun (e : Nat × Nat × List Byte × List (Nat × Nat × Rec)) => e.1 + 1 == n).map
        fun (e : Nat × Nat × List Byte × List (Nat × Nat × Rec)) => e.2.2.1).getD []
      let e : EvrSt := if bad then { base with page := n + 1, fill := 0, prevChain := chain, fullPage := some n }
        else { base with page := n, fill := fill, prevChain := prev, fullPage := if n = 0 then none else some (n - 1),
                         pageDigs := (recs.filter fun (r : Nat × Nat × Rec) => r.2.1 = n).map fun (r : Nat × Nat × Rec) => sm3 r.2.2.bytes }
      { e with foundingFull := decide (e.page ≥ 2048), wrapped := decide (e.page ≥ 12288) }
  { p with evr := { evr with sealTt := p.start.releaseTt } }

/-- The energy region is recalled (R189); the result gives COMMIT_S in force at its commit, unless it was FINAL. -/
def Plane.loadEnergy (p : Plane) : Plane × Option Nat :=
  match p.tarn.page energyPage with
  | .energy e carry intv res cs final =>
    ({ p with meter := { p.meter with energy := e }, acct := { p.acct with carry := carry, intv := intv },
              pulses := (res.zipIdx).foldl (fun t (x : (Int × Nat) × Nat) =>
                Tab.put (fun _ => {}) t x.2 { residue := x.1.1, owed := x.1.2 : PulseSt }) [] }.wr64 Reg.TACC_INTV intv, if final then none else some cs)
  | _ => (p, some (p.cfgF Reg.TACC_CFG 7 0))

/-- MAXP of R189 in W: 12,720 and NOM_V × FS / √2 for each enabled auxiliary channel, rounded up. -/
def Plane.maxPower (p : Plane) : Nat :=
  (List.range 12).foldl (fun s n =>
    let w := p.cfg (Reg.METER_AUX_CFG n)
    if bit w 0 then s + (isqrt ((fld (p.cfg Reg.MPE_CFG) 24 16 * fld w 31 16) ^ 2 * 50) + 99) / 100 else s) 12720

/-- A recalled FINAL of 0 means a possible loss (R189). -/
def Plane.possibleLoss (p : Plane) (commitS : Nat) : Plane :=
  let cs := max 1 commitS
  let maxp := p.maxPower
  (p.evt Reg.TACC_EVT 10).stage 0x2B 0 2
    (leBytes 8 p.acct.intv ++ leBytes 4 cs ++ leBytes 4 maxp ++ leBytes 8 ((cs * maxp * 10000 + 35) / 36))

/-- The installed program, the staged image, the Scan Engine's areas and the loops' banks are recalled (R197, R207, R214, R233). -/
def Plane.loadEngines (p : Plane) : Plane :=
  let p := match p.tarn.obj progPage with
    | .program body consts =>
      ((p.updScan fun x => { x with st := .stopped, prog := some body, consts := consts }).wr Reg.SCAN_WCET
        (BitVec.ofNat 32 (progWcet body))).wr64 Reg.SCAN_PROG_ID (progId body)
    | _ => p
  let p := match p.tarn.obj stagedPage with
    | .program body _ => p.updScan fun x => { x with staged := some body }
    | _ => p
  let p := match p.tarn.obj areaPage with
    | .scan ret st id tt clock final => p.updScan fun x =>
        { x with retained := ret, state := st, stateId := some id, stateTt := tt, stateClock := clock, stateFinal := final, recalled := true }
    | _ => p
  let p := match p.tarn.page bankPage with
    | .words w => w.foldl (fun (p : Plane) (e : Nat × Word) => p.setLoop e.1 { p.loop e.1 with bank := e.2.toNat }) p
    | _ => p
  p.pointIdx.foldl (fun p i =>
    let e := p.pm i
    if e.kind = 8 ∨ e.kind = 10 then p.setPoint i { qual := 1 } else p.setPoint i { qual := 3, unwritten := !inputKind e.kind }) p

/-- The key slots are unsealed (R326, R332, R420 step 5). -/
def Plane.loadKeys (p : Plane) : Plane :=
  p.tarn.sram.foldl (fun p (e : Nat × PageVal) => match e.2 with
    | .keys l => l.foldl (fun p (k : Nat × List Byte) =>
        let n (o w : Nat) : Nat := ofLe (slice k.2 o w)
        p.setKey k.1 { st := .active, imported := (n 0 1).testBit 5, type := n 1 1, parent := n 2 1, tag := n 3 1, use := n 4 2,
                       gen := n 6 2, label := n 8 4, kcv := n 12 3, key := some (k.2.drop 16) : KeySlot }) p
    | _ => p) p

/-! ### Steps 2, 3 and 5 (R321, R322, R346, R409) -/

/-- Step 2: the firmware slot is chosen and verified (R346); `bad` are the slots whose boot verification fails. -/
def Plane.chooseFw (p : Plane) (bad : BitVec 2) : Plane :=
  let fails (p : Plane) (k : Nat) : Bool := bad.getLsbD k || decide ((p.boot.fw k).svn < p.boot.fc)
  let is (p : Plane) (k : Nat) (st : FwState) : Bool := (p.boot.fw k).st == st
  -- a slot found TRIAL was booted earlier and never confirmed
  let p := [0, 1].foldl (fun p k => if is p k .trial then p.rejectSlot k 0 else p) p
  let first := if is p 0 .next then some 0 else if is p 1 .next then some 1
    else if is p 0 .confirmed then some 0 else if is p 1 .confirmed then some 1 else none
  let boot (p : Plane) (k : Nat) : Plane := p.updBoot fun b =>
    let b := if (b.fw k).st = .next then b.setFw k { b.fw k with st := .trial } else b
    { b with running := k }
  let reject (p : Plane) (k : Nat) : Plane :=
    if is p k .next then p.rejectSlot k 2 else p.updBoot fun b => b.setFw k { b.fw k with st := .rejected }
  match first with
  | none => p.raise 0 3 0
  | some k =>
    if !fails p k then boot p k
    else
      let p := reject p k
      let o := 1 - k
      if is p o .empty || is p o .rejected then p.raise 0 3 0
      else if !fails p o then boot p o
      else (reject p o).raise 0 3 0

/-- Step 3: the march test of every Basin (R409). -/
def Plane.march (p : Plane) (l : List (Fin 64 × Nat)) (now : Nat) : Plane :=
  l.foldl (fun p (e : Fin 64 × Nat) =>
    let x := p.basin e.1
    let n := min e.2 x.spares
    let p := p.setBasin e.1 { x with spares := x.spares - n, fault := decide (x.spares < e.2) }
    let p := if n = 0 then p else p.stage 0x5A 0 1 [BitVec.ofNat 8 e.1, BitVec.ofNat 8 n, BitVec.ofNat 8 (x.spares - n), 0]
    if x.spares < e.2 ∧ basinFixed e.1 then p.raise 0 4 now else p) p

/-- Step 5: the known-answer tests and Wellspring (R321, R322). -/
def Plane.regenerate (p : Plane) (m : StartMeas) (now : Nat) : Plane :=
  let p := if m.kat then p else (p.wrF Reg.KEY_STAT 10 10 1).raise 0 0 now
  let helper := !p.start.recallBad.any fun n => pageRegion n == 5
  let got : Option (Nat × Nat) := match m.copy0, m.copy1 with
    | some e, c1 => if helper ∧ e ≤ 4096 then some (0, e) else (c1.filter fun e => decide (e ≤ 4096)).map fun e => (1, e)
    | none, c1 => (c1.filter fun e => decide (e ≤ 4096)).map fun e => (1, e)
  let p := p.showBank
  match got with
  | none => p.raise 0 1 now
  | some (copy, bits) =>
    let p := { p with keys := { p.keys with rootOk := true } }
    let p := ((p.wrF Reg.KEY_ROOT 12 0 bits).wrF Reg.KEY_ROOT 16 16 copy).wrF Reg.KEY_STAT 8 8 1
    if bits > 2048 then
      (((p.wrF Reg.KEY_STAT 9 9 1).evt Reg.KEY_EVT 10).stage 0x48 0 2 (leBytes 2 bits ++ [BitVec.ofNat 8 copy, 0])).raise 2 6 now
    else p

/-- The hold-up test (R433). -/
def Plane.holdup (p : Plane) (ms now : Nat) : Plane :=
  let p := (p.wr Reg.FAULT_HOLDUP (BitVec.ofNat 32 (min 65535 ms))).stage 0x63 0 0 (leBytes 2 (min 65535 ms) ++ [0, 0])
  if ms < 2000 then p.raise 2 4 now else p.clearFlag 2 4 now

/-- The automatic restarts of the last hour, by the clock's seconds (R436). -/
def Plane.recentAutos (p : Plane) : List Nat := p.start.autos.filter fun t => decide (t ≤ p.rtc.secs) && decide (p.rtc.secs < t + 3600)

/-- Steps 5 to 7: the plane reaches READY, OFFLINE. -/
def Plane.becomeReady (p : Plane) (m : StartMeas) (now : Nat) : Plane :=
  let bad := p.start.recallBad
  let last := lastComplete p.tarn.journal
  -- the counts, then the POWER_ON record, then what arose in steps 2 to 5
  let p := p.loadRecorder
  let firstEver := p.evr.cycles = 0
  let p := p.loadRegs.loadEngines
  let (p, loss) := p.loadEnergy
  let mark := match p.tarn.page countPage with
    | .counts _ _ h hs => (h, hs)
    | _ => (0, 0)
  let p := { p with evr := { p.evr with cycles := p.evr.cycles + 1 }, mpe := { p.mpe with hwm := mark.1, hwmSecs := mark.2 } }
  let p := p.updTarn fun t => t.commitStore [(countPage, p.countsVal)]
  let chosen := (p.boot.fw p.boot.running).version
  let p := p.stage 0x01 0 0 (wallBytes p.rtc.secs (p.subsec now) ++
    [BitVec.ofNat 8 (p.rtc.osf.toNat + 2 * loss.isNone.toNat + 4 * (bad != []).toNat), 0, 0, 0] ++ leBytes 4 chosen ++ leBytes 8 last)
  let p := if p.start.rtcNew then p.setOsf (if firstEver then 0 else 2) else p
  let p := (p.chooseFw m.fwBad).march m.march now
  let p := if bad = [] then p
    else (p.stage 0x06 0 3 (leBytes 4 bad.length ++ leBytes 4 (bad.foldl min 16383) ++ leBytes 8 last)).raise 2 3 now
  let p := p.regenerate m now
  let p := if p.keys.rootOk then p.loadKeys else p
  let p := loss.elim p p.possibleLoss
  let p := if p.start.cause = .watchdog then (p.bump Reg.FAULT_WDOG_CNT 15 0).commitRegs [Reg.FAULT_WDOG_CNT] else p
  let p := p.holdup m.holdup now
  let p := p.wr Reg.FAULT_START (BitVec.ofNat 32 (p.start.cause.num + 8 * p.start.cold.toNat + 16 * (3 - p.recentAutos.length) +
    65536 * min 65535 m.readyMs))
  let p := { p with phase := .ready }
  -- flags raised on the way ask for a flush (R434)
  if p.rd Reg.FAULT_PLANE_FLT ||| p.rd Reg.FAULT_WARN = 0 then p else p.flush

/-- The first cycle number after a start (R85). -/
def Plane.firstCycle (p : Plane) : Nat :=
  p.mpe.hwm + 8192 + (if p.rtc.osf then 0 else p.nomF * (p.rtc.secs - p.mpe.hwmSecs))

/-! ### Meanings: starts -/

/-- MODULE_POWER_ON (R419): mains applied with both planes unpowered; each operand says whether that plane's backup domain kept its
supply. -/
def execModulePowerOn (backupA backupB : Bool) (s : State) : Host.Outcome State Fault Refusal :=
  .next (if s.a.phase = .unpowered ∧ s.b.phase = .unpowered then
    s.resetModule .powerOn false fun | .a => backupA | .b => backupB
  else s)

/-- PLANE_START (R420): from the release of reset, steps 1 to 4; a tick later, steps 5 to 7. An unpowered plane whose supply has returned
is released first (R431). The cycle number starts above the high-water mark while no data path has started (R85). -/
def execPlaneStart (p : PlaneId) (m : StartMeas) (s : State) : Host.Outcome State Fault Refusal :=
  .next (match (s.plane p).phase with
    | .ready => s
    | .recalled =>
      let s := s.upd p fun x => x.becomeReady m s.now
      let first := (s.plane p).firstCycle
      let shift := if (s.plane p.other).running then decide (cycleOf s.now < first) else first != cycleOf s.now
      let s := if s.dataPathStarted ∨ !shift then s else s.shiftCycles ((first : Int) - cycleOf s.now)
      -- a supply loss that came before is seen by the plane as it starts
      let s := s.upd p fun x => x.updMpe fun y => { y with slw := s.fs.power.slw }
      if (s.plane p.other).running then s.updBoth fun x => x.syncRises s.now else s
    | ph =>
      let s := if ph = .unpowered then s.resetPlane p .powerOn else s
      let s := s.upd p fun x => { x.recall with phase := .recalled }
      s.later (s.now + 1) (.planeStart p m))

/-- DELAYED_CLAIM (R425): with a zeroed region a plane claims only where no holder exists 60 s after its own TIME_VALID; where one
does, it joins. -/
def execDelayedClaim (p : PlaneId) (s : State) : Host.Outcome State Fault Refusal :=
  let x := s.plane p
  .next (if x.live ∧ x.start.zeroed ∧ x.red.role = .offline ∧ x.rd Reg.FAULT_PLANE_FLT = 0 ∧ x.start.restart = none then
    if s.fs.au.holder.isSome then s.joinPlane p
    else match x.start.validTt with
      | some t => if t + 60000000000 ≤ x.tt s.now ∧ !x.red.ownExpired ∧ !x.red.noAuth then s.sendClaim p else s
      | none => s
  else s)

/-! ### Restarts (R426, R427, R436) -/

/-- The RESTART record. -/
def Plane.restartRec (p : Plane) (cause : StartCause) (cold : Bool) (tag : Tag) (now : Nat) : Plane :=
  p.stage 0x62 0 1 ([BitVec.ofNat 8 cause.num, BitVec.ofNat 8 cold.toNat, BitVec.ofNat 8 tag.toNat, 0] ++ leBytes 8 now)

/-- Steps 1 to 4 of a plane restart: it leaves step, records, commits with FINAL and stores; its reset follows (R426). -/
def State.beginRestart (s : State) (i : PlaneId) (cause : StartCause) (tag : Tag) : State :=
  if (s.plane i).start.restart.isSome then s
  else
    let tt := s.ttNow
    let s := s.upd i fun p => ((p.leaveStep tt).setRole .offline).updStart fun x =>
      { x with restart := some (cause, tag), restartTt := p.tt s.now, drillThen := none }
    let s := s.upd i fun p => p.restartRec cause false tag s.now
    let s := if (s.plane i).acct.running ∧ !(s.plane i).acct.frozen then s.closeInterval i true else s
    let clock := (s.plane s.lead).clockRead s.now
    s.upd i fun p =>
      let p := p.meterCommit true
      let p := if p.scan.stateId.isSome ∧ !p.scan.recalled then
          { p with tarn := p.tarn.commitObj areaPage (p.areasVal clock true s.now) false } else p
      p.flush.updTarn fun t => { t with nextAll := true }

/-- A plane restart's reset is due: its store is complete, or 200 ms have passed since it left step. -/
def State.restartDue (s : State) (i : PlaneId) : Bool :=
  let p := s.plane i
  p.start.restart.isSome &&
    ((p.tarn.run.isNone && p.tarn.next == [] && !p.tarn.nextAll) || decide (p.start.restartTt + 200000000 ≤ p.tt s.now))

/-- Bring a plane's restart on: a finished Swap Drill starts it, a drill not made ends it, and a complete store resets the plane. -/
def State.settleRestart (s : State) (i : PlaneId) : State :=
  let s := match (s.plane i).start.drillThen with
    | none => s
    | some tag =>
      if (s.plane i).red.drill.isSome then s
      else if (s.plane i).isActive then s.upd i fun p => p.updStart fun x => { x with drillThen := none }
      else s.beginRestart i .planeCmd tag
  if s.restartDue i then
    match (s.plane i).start.restart with
    | some (cause, _) => s.resetPlane i cause
    | none => s
  else s

/-- RESTART.RESULT 2, counted (R439). -/
def Plane.restartRefused (p : Plane) : Plane := (p.wrF Reg.FAULT_RESTART 25 24 2).err Reg.FAULT_PAGE

/-- A RESTART write with KEY 0xA5 and OP 1 (R426). (DEDUCED, unsafe: assumption 51.) -/
def State.restartPlane (s : State) (i : PlaneId) (tag : Tag) : State :=
  let p := s.plane i
  if !p.isActive then (s.upd i fun p => p.wrF Reg.FAULT_RESTART 25 24 1).beginRestart i .planeCmd tag
  else if !s.inStep i ∨ p.red.drill.isSome then s.upd i Plane.restartRefused
  else
    let d := (s.now + 8 * 2048 + 2047) / 2048 * 2048
    let s := s.upd i fun p => (p.wrF Reg.FAULT_RESTART 25 24 1).updStart fun x => { x with drillThen := some tag }
    s.updBoth fun p => p.updRed fun r => { r with drill := some d }

/-- A RESTART write with KEY 0xA5 and OP 2 or 3 by T0 (R427). -/
def State.restartModule (s : State) (i : PlaneId) (tag : Tag) (cold : Bool) : State :=
  if !(s.plane i).isActive ∨ s.fs.restart.isSome then s.upd i Plane.restartRefused
  else
    let s := s.upd i fun p => p.wrF Reg.FAULT_RESTART 25 24 1
    s.field fun f => { f with restart := some { at_ := (s.now + 2 * 2048 + 2047) / 2048 * 2048, cold := cold, tag := tag } }

/-- MODULE_RESTART_DISABLE (R427, R432): at b both planes act as if WEIR.CTRL.EN had been cleared; 2,048 ticks later the ports are
shed. A restart whose b has not passed is held while SLW is raised. -/
def execModuleRestartDisable (s : State) : Host.Outcome State Fault Refusal :=
  .next (match s.fs.restart with
    | none => s
    | some r =>
      if r.step = 0 then
        if r.at_ ≤ s.now ∧ s.now % 2048 = 0 ∧ !s.fs.power.slw then
          let s := s.updBoth fun p =>
            let p := (p.cancelAll (fun x => decide (s.now ≤ x.launch)) s.now).stopStanding (fun _ => true) 3 s.now
            p.updWeir fun w => { w with stopped := true }
          s.field fun f => { f with restart := some { r with at_ := s.now, step := 1 } }
        else s
      else if r.step = 1 ∧ r.at_ + 2048 ≤ s.now then
        let s := s.updBoth fun p => p.restartRec .moduleCmd r.cold r.tag s.now
        s.shedAll.field fun f => { f with restart := some { r with step := 2, shedTt := s.ttNow } }
      else s)

/-- Whether a plane is in PF_HOLD. -/
def Plane.pfHold (p : Plane) : Bool := p.rdF Reg.FAULT_STAT 12 12 == 1

/-- MODULE_RESET (R427): once both stores are complete, or 200 ms after the shed stamp. -/
def execModuleReset (s : State) : Host.Outcome State Fault Refusal :=
  .next (match s.fs.restart with
    | none => s
    | some r =>
      let held (p : Plane) : Bool := !p.running || p.pfHold
      if r.step = 2 ∧ ((held s.a ∧ held s.b) ∨ r.shedTt + 200000000 ≤ s.ttNow) then s.resetModule .moduleCmd r.cold fun _ => true
      else s)

/-- WATCHDOG (R426): the plane is reset at once. -/
def execWatchdog (p : PlaneId) (s : State) : Host.Outcome State Fault Refusal :=
  .next (if (s.plane p).phase = .unpowered then s else s.resetPlane p .watchdog)

/-- SUPPLY_MONITOR_FAIL (R429). -/
def execSupplyMonitorFail (p : PlaneId) (s : State) : Host.Outcome State Fault Refusal := .next (s.pfStart p 0)

/-- SUPERCAP_STOP (R431): the plane stops; a store cut short is recalled under R363. -/
def execSupercapStop (p : PlaneId) (s : State) : Host.Outcome State Fault Refusal :=
  .next (if (s.plane p).start.pfAt.isSome then
    (s.upd p fun x => { ((x.setRole .offline).updTarn TarnSt.cut).updRtc fun r => { r with stopped := !r.crystal } with
      phase := .unpowered }).peerGone p
  else s)

/-- MAINS_RETURN_RESTART (R431): SLW clear for 1 s after a shed, with both power-fail stores complete. -/
def execMainsReturnRestart (s : State) : Host.Outcome State Fault Refusal :=
  .next (match s.fs.power.okTt with
    | none => s
    | some t =>
      if s.fs.power.shed ∧ !s.fs.power.slw ∧ t + 1000000000 ≤ s.ttNow ∧ s.a.running ∧ s.b.running ∧ s.a.pfHold ∧ s.b.pfHold then
        s.resetModule .mainsReturn false fun _ => true
      else s)

/-- HOLDUP_TEST (R433). -/
def execHoldupTest (p : PlaneId) (ms : Nat) (s : State) : Host.Outcome State Fault Refusal :=
  .next (s.upd p fun x => if x.running then x.holdup ms s.now else x)

/-- AUTO_RESTART (R436). -/
def execAutoRestart (p : PlaneId) (s : State) : Host.Outcome State Fault Refusal :=
  let x := s.plane p
  .next (match x.start.fltTt with
    | none => s
    | some t =>
      if x.live ∧ !x.isActive ∧ x.rd Reg.FAULT_PLANE_FLT ≠ 0 ∧ x.rdF Reg.FAULT_RESTART 16 16 = 1 ∧ t + 10000000000 ≤ x.tt s.now ∧
          x.recentAutos.length < 3 ∧ x.start.restart = none then
        (s.upd p fun x => x.updStart fun y => { y with autos := x.recentAutos ++ [x.rtc.secs] }).beginRestart p .automatic 0
      else s)

/-! ### Fault flags (R434 to R436) -/

/-- Every metering channel, by bits [15:4] of its register numbers. -/
def meterChannels : List Nat :=
  [0, 1, 2, 4] ++ ((List.range 12).map fun n => 0x100 + n) ++ ((List.range 128).map fun n => 0x200 + n) ++ [0x400]

/-- A module-stopping fault (R436): commands break, standing launches stop, the field side holds its outputs. -/
def State.moduleStop (s : State) : State :=
  let s := s.updBoth fun p => (p.breakAll (fun _ => true) 7 s.now).stopStanding (fun _ => true) 3 s.now
  (s.withdraw fun _ => true).field fun f => { f with stopped := true }

/-- Every link is down with the switch fabric (R265, R435). -/
def State.fabricDown (s : State) : State :=
  let s := (List.range 128).foldl (fun s n => if (s.fs.port n).link then s.portDown n else s) s
  (List.range 4).foldl (fun s u =>
    if (s.fs.uplink u).link then s.uplinkDown u else s) s

/-- The reaction to a field fault (R435). (DEDUCED, unsafe: assumption 35.) -/
def State.fieldFault (s : State) (n : Nat) : State :=
  if n < 4 then
    ((s.field fun f => { f with power := { f.power with cells := f.power.cells &&& ~~~(1#4 <<< n) } }).updBoth
      fun p => p.evt Reg.PWR_EVT 11).availFall
  else if n = 5 then s.field fun f => { f with power := { f.power with hot := true } }
  else if n = 7 then s.fabricDown
  else if n = 8 then s.updBoth fun p => meterChannels.foldl (fun p c => p.setFault c true) p
  else if n = 9 then s.canFront true
  else if n = 10 ∨ n = 11 then s.moduleStop
  else s

/-- FAULT_RAISED (R434, R435): a plane fault in its plane, a field fault in both, a warning in its plane. -/
def execFaultRaised (p : PlaneId) (reg : Fin 3) (bit : Fin 13) (s : State) : Host.Outcome State Fault Refusal :=
  let n := bit.val
  .next (if reg = 0 then (if n < 10 ∧ (s.plane p).running then s.planeFault p n else s)
    else if reg = 1 then (s.updBoth fun x => x.raise 1 n s.now).fieldFault n
    else if n < 7 then s.upd p fun x => if x.running then x.raise 2 n s.now else x
    else s)

/-- FAULT_CLEARED (R434): a field fault or warning ends; WARN.RECALL and the module-stopping faults stay until the next start. -/
def execFaultCleared (p : PlaneId) (reg : Fin 3) (bit : Fin 13) (s : State) : Host.Outcome State Fault Refusal :=
  let n := bit.val
  .next (if reg = 1 ∧ n = 5 then
      let s := s.field fun f => { f with power := { f.power with hot := false } }
      if s.fs.power.intake > 50 then s else s.updBoth fun x => x.clearFlag 1 n s.now
    else if reg = 1 ∧ n ≠ 10 ∧ n ≠ 11 then
      let s := s.updBoth fun x => x.clearFlag 1 n s.now
      if n < 4 then s.field fun f => { f with power := { f.power with cells := f.power.cells ||| (1#4 <<< n) } }
      else if n = 9 then s.canFront false
      else if n = 8 then s.updBoth fun x => meterChannels.foldl (fun x c => x.setFault c (x.meter.signalFault c)) x
      else s
    else if reg = 2 ∧ n ≠ 3 ∧ n < 7 then s.upd p fun x => if x.running then x.clearFlag 2 n s.now else x
    else s)

/-! ### The alarm relay (R437) -/

/-- Whether a plane's relay request is healthy. -/
def Plane.relayHealthy (p : Plane) : Bool :=
  let m := p.rd Reg.FAULT_RELAY
  !((bit m 0 && p.rd Reg.FAULT_PLANE_FLT != 0) || (bit m 1 && p.rd Reg.FAULT_FIELD_FLT != 0) || (bit m 2 && p.rd Reg.FAULT_WARN != 0)) &&
    p.start.relayTest.isNone

/-- Bring the relay to what R437 asks; while the lease is vacant for less than 8 half-cycles it keeps its state. (DEDUCED, unsafe: assumption 52.) -/
def State.settleRelay (s : State) : State :=
  let on : Bool := !s.fs.stopped && !s.fs.power.shed && (match s.fs.au.holder with
    | some i => (s.plane i).relayHealthy
    | none => s.fs.relay && decide (s.now < s.fs.au.vacantSince + 8 * 2048))
  let s' := s.field fun f => { f with relay := on }
  if s.fs.relay && !on then s'.updBoth fun p => p.evt Reg.FAULT_EVT 11 else s'

/-- A write of RELAY.TEST drops the relay for 2 s. -/
def State.relayTest (s : State) (i : PlaneId) : State :=
  (s.upd i fun p => p.updStart fun x => { x with relayTest := some (p.tt s.now + 2000000000) }).settleRelay

/-- RELAY_TEST_END (R437). -/
def execRelayTestEnd (p : PlaneId) (s : State) : Host.Outcome State Fault Refusal :=
  .next (s.upd p fun x => x.updStart fun y => { y with relayTest := y.relayTest.filter fun t => decide (x.tt s.now < t) }).settleRelay

end Sys2Proof.Machine
end

