-- ==== Sys2Proof/Machine/Shore.lean ====
section
/-!
DEFINITION. The Shore check (chapter 13): which tag may read or write which word, judged against the register image as it stands
(R302), with the rules taken in the order of R303.
-/
namespace Sys2Proof.Machine

/-- A register access as the Shore check judges it: the path (0 the HRP, 1 to 8 the sessions), the tag, write or read, the bits that
byte enables cover, the data, the byte address, and the TAG byte of the transmit object that a message memory address names. -/
structure Access where
  path : Nat
  tag : Nat
  write : Bool
  mask : Word
  data : Word
  addr : Nat
  txTag : Option Nat := none
deriving DecidableEq, Repr

/-- Page and offset of an access. -/
def Access.page (x : Access) : Nat := x.addr / 0x1000
def Access.off (x : Access) : Nat := x.addr % 0x1000

/-- The data in the enabled bytes. -/
def Access.val (x : Access) : Word := x.data &&& x.mask

/-- Whether a write would change bits of `m` in the word that the image holds. -/
def Plane.changes (p : Plane) (x : Access) (m : Word) : Bool := ((merge x.mask (p.rd x.addr) x.data ^^^ p.rd x.addr) &&& m) != 0

/-! ### Rule 1: the path (R64, R313, R316) -/

/-- Whether a plane permits a tag on the HRP (R316). -/
def Plane.hrpAllows (p : Plane) (t : Nat) : Bool :=
  if t < 32 then bit (p.rd Reg.ACCESS_HRP_ALLOW_LO) t else bit (p.rd Reg.ACCESS_HRP_ALLOW_HI) (t - 32)

/-- Whether a plane accepts sessions of a tag (R316). -/
def Plane.remAllows (p : Plane) (t : Nat) : Bool :=
  if t < 32 then bit (p.rd Reg.ACCESS_REM_ALLOW_LO) t else bit (p.rd Reg.ACCESS_REM_ALLOW_HI) (t - 32)

/-- Rule 1: outside HRP_ALLOW, or a tenant whose applied ACTIVE is 0. Before READY the fields recalled from the store read 0 and the
rule does not apply (R422). -/
def Plane.pathForbids (p : Plane) (x : Access) : Bool :=
  p.running && ((x.path == 0 && !p.hrpAllows x.tag) || (0 < x.tag && x.tag < 63 && !tagActive p.cfg x.tag))

/-! ### Rule 2: the service set (R306) -/

/-- Pages of which T63 reads every register but the RC ones. -/
def servicePage (page : Nat) : Bool := [0x00, 0x04, 0x05, 0x0C, 0x20, 0x2C, 0x4C, 0x4D, 0x50].contains page

/-- Whether a register has RC bits. -/
def isRc (a : Nat) : Bool :=
  match regAt a with
  | some x => x.row.rc != 0
  | none => false

/-- Whether T63 may make an access. -/
def Plane.serviceOk (p : Plane) (x : Access) : Bool :=
  if !x.write then
    ((blockOf x.page).isSome && (x.off == 0 || x.off == 8)) || (servicePage x.page && !isRc x.addr)
  else if x.addr = Reg.BKG_CFG ∨ x.addr = Reg.BKG_RUN then true
  else if x.addr = Reg.FAULT_RELAY then !p.changes x 7#32
  else if x.addr = Reg.FAULT_RESTART then !p.changes x 0x10000#32 && (fld x.mask 7 0 == 0 || fld x.data 2 0 == 1)
  else if x.addr = Reg.BOOT_FW_CTRL then !bit x.val 2
  else if x.addr = Reg.BOOT_IMG_CTRL then !bit x.val 8
  else if x.addr = Reg.BOOT_IMG_DATA then (match p.boot.load with
    | some l => !l.program
    | none => true)
  else false

/-! ### Rules 3 and 4: tenant-private items and the blocks' own rules -/

/-- Private key slots (R307, R351): the descriptor is read by T0 and the slot's tag, the public key of the slot's tag alone. -/
def Plane.privateKey (p : Plane) (x : Access) : Bool :=
  let slot := p.keySlot (p.prdF x.path Reg.KEY_K_SEL 7 0)
  let foreign := slot.st != .empty && 0 < slot.tag && slot.tag < 63 && slot.tag != x.tag
  !x.write && x.page == 0x40 && foreign && ((0x070 ≤ x.off && x.off < 0x080 && x.tag != 0) || (0x100 ≤ x.off && x.off < 0x140))

/-- The record loaded on a path that the tag may not read (R307, R372): 3 for a private one, 4 for another's, 0 for none. -/
def Plane.foreignRec (p : Plane) (x : Access) : Nat :=
  if x.page = 0x45 ∧ !x.write ∧ ((0x080 ≤ x.off ∧ x.off < 0x0A0) ∨ 0x800 ≤ x.off) then
    let b := (p.path x.path).loaded
    let tag := (b.getD 3 0).toNat % 64
    if b = [] ∨ tag = x.tag then 0
    else if (b.getD 14 0).toNat % 2 = 1 then (if x.tag = 0 ∧ b.length = 20 then 0 else 3)
    else if x.tag = 0 then 0 else 4
  else 0

/-- An answer of a block's own rule: nothing where the block gives none. -/
abbrev BlockRule := Option Bool

/-- CMD (R123): registers kept per path are open; SLOT_n and the SEL_ registers are read by T0 and the command's tag. DONE words are
open, with the bits of other tags left out. -/
def Plane.cmdRule (p : Plane) (x : Access) : BlockRule :=
  let sees (n : Nat) : Bool := let s := p.slot n; s.st == .free || x.tag == 0 || s.tag.toNat == x.tag
  if x.off < 0x40 then none
  else if 0x400 ≤ x.off ∧ x.off < 0x800 then some (sees ((x.off - 0x400) / 4))
  else if 0x7C ≤ x.off ∧ x.off < 0x98 then some (sees (p.prdF x.path Reg.CMD_SEL 7 0))
  else some true

/-- The account of an LI or LS register. -/
def accountOf (off : Nat) : Option Nat :=
  if 0x100 ≤ off ∧ off < 0x1FC then some ((off - 0x100) / 4)
  else if 0x200 ≤ off ∧ off < 0x2FC then some ((off - 0x200) / 4) else none

/-- SCAN (R220): CHG_k, CHG_CTRL and CHG_STAT are open; an item is judged as its high word completes it. -/
def Plane.scanRule (p : Plane) (x : Access) : BlockRule :=
  if x.off = 0x88 ∨ x.off = 0x8C then some true
  else if 0x100 ≤ x.off ∧ x.off < 0x300 then
    if !x.write ∨ x.off % 8 = 0 ∨ x.mask = 0 then some true
    else
      let lo := x.addr - 4
      let h := p.heldLow x.path lo
      let w := (merge h.1 (p.rd lo) h.2).toNat
      let op := w / 2 ^ 28
      some (x.tag == 0 || (op != 4 && (opTag p.rd (p.scan.prog.getD []) (w % 2 ^ 24)).getD x.tag == x.tag))
  else none

/-- The words of the record or section that a path writes: its buffer over the present words. -/
def Plane.bufWord (p : Plane) (path win base k : Nat) (old : Nat → Word) : Word :=
  match (p.path path).bufs.find? fun e => e.1 == win && e.2.base == base with
  | some e => e.2.words.foldl (fun w m => if m.1 == k then merge m.2.1 w m.2.2 else w) (old k)
  | none => old k

/-- LOOP (R237, R238): the selections are open, and so are the buffered words to write; a record, its status and control go by the loop's tag, a
section by its slot's; only T0 changes TAG, FIRST or COUNT. LSTATE is open, with the fields of other tags left out. -/
def Plane.loopRule (p : Plane) (x : Access) : BlockRule :=
  let l := p.prdF x.path Reg.LOOP_L_SEL 8 0
  let mine (t : Nat) : Bool := x.tag == 0 || x.tag == t
  if x.off = 0x40 ∨ x.off = 0x70 ∨ 0x800 ≤ x.off then some true
  else if x.write ∧ ((0x44 ≤ x.off ∧ x.off < 0x58) ∨ (0x74 ≤ x.off ∧ x.off < 0x88)) then some (x.tag != 63)
  else if 0x44 ≤ x.off ∧ x.off < 0x70 then
    let w (k : Nat) : Word := p.bufWord x.path 3 l k fun k => p.rd (loopRec l k)
    let same := fld (w 0) 13 8 == loopTag p.rd l && fld (w 0) 27 16 == fld (p.rd (loopRec l 0)) 27 16 &&
      fld (w 1) 3 0 == fld (p.rd (loopRec l 1)) 3 0
    some (mine (loopTag p.rd l) && (x.tag == 0 || !x.write || x.off != 0x58 || x.mask == 0 || same))
  else if 0x74 ≤ x.off ∧ x.off < 0x8C then some (mine (slotTag p.rd (p.prdF x.path Reg.LOOP_S_SEL 11 0)))
  else none

/-- A wake filter's word of a path, by offset in the filter. -/
def Plane.filterWord (p : Plane) (path k o : Nat) : Word := p.bufWord path 4 k (o / 4) fun j => p.rd (Reg.WAKE_MASK_0 k + 4 * j)

/-- WAKE (R280, R284): a filter's words are read and written by T0 and the filter's tag. The write of CFG that completes it may not name
ports of another tag unless the filter is tagged T0, nor move the filter or set PWRON but by T0 (R314). -/
def Plane.wakeRule (p : Plane) (x : Access) : BlockRule :=
  if 0x100 ≤ x.off ∧ x.off < 0x900 then
    let k := (x.off - 0x100) / 0x40
    let cfg := p.rd (Reg.WAKE_CFG k)
    let tag := fld cfg 13 8
    if x.tag ≠ 0 ∧ x.tag ≠ tag then some false
    else if !x.write ∨ (x.off - 0x100) % 0x40 ≠ 0x24 ∨ x.mask = 0 then some true
    else
      let new := merge x.mask cfg x.data
      let t := fld new 13 8
      let ports := below 128 fun n => bit (p.filterWord x.path k (0x14 + 4 * (n / 32))) (n % 32)
      some ((t == 0 || ports.all fun n => portTag p.rd n == t) &&
        (x.tag == 0 || (t == tag && (!bit new 6 || bit cfg 6))))
  else none

/-- RTC (R387, R394, R397): the calendar is open to readers; units by their tag; adjustments and periodic units are written by T0. EVT is
open to readers and writers of the units they reach. -/
def Plane.rtcRule (p : Plane) (x : Access) : BlockRule :=
  let unit (u : Nat) : BlockRule :=
    let cfg := p.rd (Reg.RTC_ALM_CFG u)
    let t := fld cfg 13 8
    if x.tag = 0 then some true
    else if t = 0 then none
    else if t ≠ x.tag then some false
    else if x.addr = Reg.RTC_ALM_CFG u ∧ x.write then
      let new := merge x.mask cfg x.data
      some (fld new 13 8 == t && !(bit new 4 && !bit cfg 4))
    else some true
  if x.off = 0x0C then some true
  else if x.off = 0x08 ∨ (0x40 ≤ x.off ∧ x.off < 0x50) ∨ x.off = 0x5C then (if x.write then none else some true)
  else if x.write ∧ (x.off = 0x04 ∨ x.off = 0x50 ∨ x.off = 0x54 ∨ x.off = 0x58) then some (x.tag == 0)
  else if 0x80 ≤ x.off ∧ x.off < 0x240 then unit ((x.off - 0x80) / 0x20)
  else if 0x240 ≤ x.off ∧ x.off < 0x278 then unit ((x.off - 0x240) / 4)
  else if x.write ∧ 0x300 ≤ x.off ∧ x.off < 0x320 then some (x.tag == 0)
  else none

/-- MEM (R400): the registers of a Basin are read by T0 and its tag, and written by T0. -/
def Plane.memRule (p : Plane) (x : Access) : BlockRule :=
  let t := fld (p.basin (p.prdF x.path Reg.MEM_SEL 5 0)).cfg 23 18
  if x.off = 0x44 ∨ x.off = 0x48 ∨ (0x60 ≤ x.off ∧ x.off < 0x88) then
    some (x.tag == 0 || (!x.write && x.tag == t && t != 0))
  else none

/-- A window word is judged by the tag that its entry holds (R53, R131, R298). -/
def Plane.windowRule (p : Plane) (x : Access) : BlockRule :=
  let mine (t : Nat) : Bool := x.tag == 0 || x.tag == t
  if x.addr < 0x120000 then some (mine (pointTag p.rd ((x.addr - 0x100000) / 16)))
  else if x.addr < 0x140000 then some (mine (entryTag p.rd ((x.addr - 0x120000) / 32)))
  else
    let ch := (x.addr - 0x140000) / 0x3000
    let o := (x.addr - 0x140000) % 0x3000
    if o ≥ 10240 then some true else some (mine (x.txTag.getD ((p.rx ch).obj (o / 80)).tag))

/-- The rule that the block's chapter gives for a word (R303, rule 4). -/
def Plane.blockRule (p : Plane) (x : Access) : BlockRule :=
  if isWindow x.page then p.windowRule x
  else match x.page with
    | 0x09 => p.cmdRule x
    | 0x0A => if 0x800 ≤ x.off ∧ !x.write then some true else none
    | 0x0B => if 0x800 ≤ x.off ∧ !x.write then some true else none
    | 0x24 => if 0x44 ≤ x.off ∧ x.off < 0x58 then some true else none
    | 0x25 => match accountOf x.off with
      | some k => if x.write then none else some (x.tag == 0 || x.tag == k)
      | none => none
    | 0x28 => p.scanRule x
    | 0x29 => p.loopRule x
    | 0x30 => if x.off = 0x5C then some true else none
    | 0x35 => p.wakeRule x
    | 0x40 => if (0x44 ≤ x.off ∧ x.off < 0x5C) ∨ (0x70 ≤ x.off ∧ x.off < 0xA0) ∨ (0x100 ≤ x.off ∧ x.off < 0x140) ∨
        (0x200 ≤ x.off ∧ x.off < 0x300) then some true else none
    | 0x41 => if (0x48 ≤ x.off ∧ x.off < 0x58) ∨ 0x400 ≤ x.off then some true else none
    | 0x44 => if x.write ∧ x.off = 4 ∧ bit x.val 8 then some (x.tag == 0) else none
    | 0x45 => if x.write ∧ x.off = 4 ∧ bit x.val 8 then some (x.tag == 0)
        else if 0x60 ≤ x.off then some true else none
    | 0x48 => p.rtcRule x
    | 0x4C => p.memRule x
    | _ => none

/-! ### Rule 5: object registers (R305) -/

/-- The tag of the object whose register an access reaches, and the bits reserved to T0. (DEDUCED, unsafe: assumption 26.) -/
def Plane.objectOf (p : Plane) (x : Access) : Option (Nat × Word) :=
  let g := p.rd
  if 0x10 ≤ x.page ∧ x.page ≤ 0x1F then
    if 0x80 ≤ x.off ∧ x.off < 0x180 then
      some (portTag g ((x.page - 0x10) * 8 + (x.off - 0x80) / 0x20), if (x.off - 0x80) % 0x20 = 0 then 0xFFFFFF02#32 else 0)
    else none
  else if x.page = 0x30 then
    if 0x60 ≤ x.off ∧ x.off < 0x80 then some (portTag g (p.prdF x.path Reg.SWF_CNT_SEL 6 0), 0)
    else if 0x400 ≤ x.off ∧ x.off < 0x800 then some (portTag g ((x.off - 0x400) / 4 % 128), 0) else none
  else if x.page = 0x24 then
    if 0x80 ≤ x.off ∧ x.off < 0xE0 then some (auxTag g ((x.off - 0x80) / 8), 0xFFFFFFFF#32)
    else if 0x400 ≤ x.off ∧ x.off < 0x600 then some (portTag g ((x.off - 0x400) / 4), 0xFFFFFFFF#32) else none
  else if 0x38 ≤ x.page ∧ x.page ≤ 0x3F ∧ 0x40 ≤ x.off then
    some (canTag g (x.page - 0x38), if x.off = 0x40 then 0x3F00#32 else 0)
  else none

/-! ### Rule 6: the page (R304, R310) -/

/-- Whether a tag other than T63 may read the registers of a page. -/
def Plane.pageReads (p : Plane) (page tag : Nat) : Bool :=
  page == 0 || page == 0x1F0 || tag == 0 ||
    (let w := p.rd (page * 0x1000 + 0x14); fld w 5 0 == tag || bit w 8)

/-- Rule 6. -/
def Plane.pageOk (p : Plane) (x : Access) : Bool :=
  if !x.write then p.pageReads x.page x.tag
  else if x.tag = 0 then true
  else if x.page = 0 ∨ x.page = 0x1F0 then x.addr == Reg.SYS_CFG_CTRL
  else fld (p.rd (x.page * 0x1000 + 0x14)) 5 0 == x.tag && x.off != 0x14

/-! ### The check (R303) -/

/-- The Shore check of an access: 0 where it is permitted, otherwise the number of the rule that forbids it. -/
def Plane.shore (p : Plane) (x : Access) : Nat :=
  if p.pathForbids x then 1
  else if x.tag = 63 then (if p.serviceOk x then 0 else 2)
  else if p.privateKey x then 3
  else if p.foreignRec x ≠ 0 then p.foreignRec x
  else match p.blockRule x with
    | some ok => if ok then 0 else 4
    | none =>
      if !mapped x.page then 0
      else match p.objectOf x with
        | some (t, reserved) =>
          if x.tag = 0 then 0 else if x.tag ≠ t ∨ (x.write ∧ p.changes x reserved) then 5 else 0
        | none => if p.pageOk x then 0 else 6

/-- Objects of a tag as the register image holds them (R318): ports, CAN channels, auxiliary channels, loops; points, entries; pages,
filters, key slots; Basins, alarm units. -/
def Plane.useOf (p : Plane) (t : Nat) : List Nat :=
  let g := p.rd
  [(List.range 128).countP fun n => portTag g n == t, (List.range 8).countP fun n => canTag g n == t,
   (List.range 12).countP fun n => auxTag g n == t, (List.range 512).countP fun l => loopTag g l == t,
   (List.range 8192).countP fun i => pointTag g i == t, (List.range 4096).countP fun j => entryTag g j == t,
   (List.range 0x60).countP fun n => (blockOf n).isSome && fld (g (n * 0x1000 + 0x14)) 5 0 == t,
   (List.range 32).countP fun k => fld (g (Reg.WAKE_CFG k)) 13 8 == t,
   (List.range 256).countP fun n => (p.keySlot n).st != .empty && (p.keySlot n).tag == t,
   (List.range 64).countP fun b => fld (p.basin b).cfg 23 18 == t,
   (List.range 14).countP fun u => fld (g (Reg.RTC_ALM_CFG u)) 13 8 == t]

end Sys2Proof.Machine
end

