-- ==== Sys2Proof/Machine/Cfg.lean ====
section
/-!
DEFINITION. The way of a configuration write (R55 to R60): what a write may change, the queue and its groups, the link to the standby,
table entries written as a whole, and the boundary at which a group applies.
-/
namespace Sys2Proof.Machine

/-! ### Writes that a field refuses -/

/-- What is left of a write once its fields' own rules are met: the bits that act, the data, and whether it counts in ERR_CNT. -/
structure Judged where
  mask : Word
  data : Word
  err : Bool := false
deriving DecidableEq, Repr

/-- Leave out field `[hi:lo]` of a write where `bad` holds and the write acts on it. -/
def Judged.drop (j : Judged) (hi lo : Nat) (bad : Bool) : Judged :=
  if bad && (j.mask &&& maskOf hi lo) != 0 then { j with mask := j.mask &&& ~~~maskOf hi lo, err := true } else j

/-- Ignore a whole write where `bad` holds. -/
def Judged.refuse (j : Judged) (bad : Bool) : Judged := if bad then { j with mask := 0, err := true } else j

/-- Ignore a whole write that acts on field `[hi:lo]` where `bad` holds (R313). -/
def Judged.refuseOn (j : Judged) (hi lo : Nat) (bad : Bool) : Judged := j.refuse (bad && (j.mask &&& maskOf hi lo) != 0)

/-- Write another value to field `[hi:lo]` where `bad` holds and the write acts on it (R165). -/
def Judged.clip (j : Judged) (hi lo v : Nat) (bad : Bool) : Judged :=
  if bad && (j.mask &&& maskOf hi lo) != 0 then { j with data := setFld j.data hi lo v, err := true } else j

/-- The rate of a bit time within R285, from its clock periods: 40 MHz over 40 to 320 periods for 1 Mbit/s to 125 kbit/s, and over
at least 8 for 5 Mbit/s. -/
def nbtOk (n : Word) : Bool := 40 ≤ nbtClocks n && nbtClocks n ≤ 320
def dbtOk (n d : Word) (tdc : Bool) : Bool := 8 ≤ dbtClocks d && dbtClocks d ≤ nbtClocks n && (tdc || 40 ≤ dbtClocks d)

/-- Whether a tag may be given to an object: active in the register image (R313); T63 where `service` allows it. -/
def Plane.tagFree (p : Plane) (t : Nat) (service : Bool) : Bool := if t = 63 then service else tagActive p.rd t

/-- Pages whose OWNER is fixed (R310). -/
def ownerFixed (page : Nat) : Bool := [0x00, 0x01, 0x02, 0x40, 0x41, 0x42, 0x50].contains page

/-- T_n (R311, R313): the VIDs of active tags stay distinct and in range, and a tag that holds an object stays active. -/
def Plane.tenantBad (p : Plane) (n : Nat) (new : Word) : Bool :=
  let old := p.rd (Reg.TENANT_T n)
  let act := n = 0 || bit new 16
  let vid := fld new 11 0
  let others := (List.range 63).filter fun t => t != n && tagActive p.rd t
  (act && (vid == 0 || 4094 < vid || vid == mgmtVid p.rd || others.any fun t => tagVid p.rd t == vid)) ||
    (n != 0 && bit old 16 && !bit new 16 && (((p.useOf n).zipIdx).any fun e => e.2 != 8 && e.1 != 0))

/-- The field rules of the blocks for a write of `mask` and `data` to a register at byte address `a` (R46 and the chapters it names). (DEDUCED, unsafe: assumption 22.) -/
def Plane.judge (p : Plane) (a : Nat) (mask data : Word) : Judged :=
  let page := a / 0x1000
  let off := a % 0x1000
  let new := merge mask (p.rd a) data
  let j : Judged := { mask := if a = Reg.TENANT_T 0 then mask &&& ~~~0x10000#32 else mask, data := data }
  if off = 0x14 then (if ownerFixed page then { j with mask := 0 } else j.refuseOn 5 0 (!p.tagFree (fld new 5 0) false))
  else match page with
    | 0x01 =>
      if off = 0x40 ∨ off = 0x48 then
        j.refuse (!bit new 0 && !bit (p.rd (if off = 0x40 then Reg.ACCESS_REM_ALLOW_LO else Reg.ACCESS_HRP_ALLOW_LO)) 0)
      else if off = 0x64 then j.refuse (fld new 15 0 == 0) else j
    | 0x02 => if 0x100 ≤ off ∧ off < 0x1FC then j.refuse (p.tenantBad ((off - 0x100) / 4) new) else j
    | 0x04 => if off = 0x40 then j.drop 24 16 (fld new 24 16 < 100 || 240 < fld new 24 16) else j
    | 0x05 => if off = 0x74 then j.drop 0 0 (bit data 0 && decide (p.mpe.cycDiff ≤ 0)) else j
    | 0x24 =>
      if 0x80 ≤ off ∧ off < 0xE0 ∧ off % 8 = 0 then
        ((j.drop 2 1 (fld new 2 1 == 3)).refuseOn 13 8 (!p.tagFree (fld new 13 8) false)).drop 31 16 (fld new 31 16 == 0)
      else j
    | 0x26 =>
      if 0x40 ≤ off ∧ off < 0xC0 ∧ off % 16 = 0 then j.drop 31 16 (!meterRegEnergy (fld new 31 16))
      else if 0x40 ≤ off ∧ off < 0xC0 ∧ off % 16 = 4 then j.refuse (new == 0) else j
    | 0x28 =>
      if off = 0x40 then
        j.refuse (p.scan.st == .running || p.scan.st == .halted || fld new 7 0 == 0 || fld new 7 0 ≤ fld new 15 8)
      else if off = 0x44 then j.drop 2 0 (fld data 2 0 == 0 || 4 < fld data 2 0) else j
    | 0x2C =>
      if off = 0x40 then (j.drop 11 8 (fld new 11 8 == 0 || 8 < fld new 11 8)).drop 24 16 (fld new 24 16 < 25 || 400 < fld new 24 16)
      else j
    | 0x30 =>
      if off = 0x44 then
        let vid := fld new 11 0
        j.drop 11 0 (((List.range 63).filter fun t => tagActive p.rd t).any fun t => tagVid p.rd t == vid)
      else j
    | 0x41 =>
      let x := p.keySlot (fld new 7 0)
      if off = 0x40 then j.drop 7 0 (x.type != 1 || !x.use.testBit 8 || x.tag != 0)
      else if off = 0x44 then j.drop 7 0 (x.type != 1 || !x.use.testBit 9 || x.imported || x.tag != 0) else j
    | 0x48 =>
      if 0x80 ≤ off ∧ off < 0x240 ∧ off % 0x20 = 0 then j.refuseOn 13 8 (!p.tagFree (fld new 13 8) false)
      else if off = 0x304 ∨ off = 0x314 then j.refuse (fld new 24 0 == 0 || 22118400 < fld new 24 0) else j
    | 0x4D => if off = 0x40 then { j with mask := mask &&& ~~~0x10#32 } else j
    | _ =>
      if 0x10 ≤ page ∧ page ≤ 0x1F ∧ 0x80 ≤ off ∧ off < 0x180 then
        if off % 0x20 = 0 then (j.clip 15 8 180 (180 < fld new 15 8)).refuseOn 23 18 (!p.tagFree (fld new 23 18) true)
        else if off % 0x20 = 4 then j.clip 1 0 0 (fld new 1 0 == 3) else j
      else if 0x38 ≤ page ∧ page ≤ 0x3F then
        let n := page - 0x38
        if off = 0x40 then j.refuseOn 13 8 (!p.tagFree (fld new 13 8) false)
        else if off = 0x44 then j.refuse (!(nbtOk new && dbtOk new (p.rd (Reg.CAN_DBT n)) (bit (p.rd (Reg.CAN_CFG n)) 3)))
        else if off = 0x48 then j.refuse (!dbtOk (p.rd (Reg.CAN_NBT n)) new (bit (p.rd (Reg.CAN_CFG n)) 3))
        else if 0x50 ≤ off ∧ off < 0x60 then j.refuse (bit (p.rd (Reg.CAN_CTRL n)) 0 && new != p.rd a) else j
      else j

/-- The page whose ERR_CNT a refused write of a page counts in: TENANT for a VID that SWF.MGMT would share (R311). -/
def errPage (a : Nat) : Nat := if a = Reg.SWF_MGMT then 0x02 else a / 0x1000

/-- Count a field's refusal; one of TENANT also sets EVT.BAD_CFG. -/
def Plane.refuseField (p : Plane) (a : Nat) : Plane :=
  let p := p.err (errPage a)
  if errPage a = 0x02 then p.evt Reg.TENANT_EVT 8 else p

/-! ### The queue and its groups (R57 to R59) -/

/-- The group that a path gathers. -/
def Plane.heldGroup (p : Plane) (path : Nat) : Option CfgGroup := p.grps.find? fun g => g.held == some path

/-- Whether a path gathers: the HRP while HOLD is set; a session only within a GROUP request. -/
def Plane.gathers (p : Plane) (path : Nat) (group : Bool) : Bool := if path = 0 then p.rdF Reg.SYS_CFG_CTRL 0 0 == 1 else group

/-- Change a group. -/
def Plane.updGrp (p : Plane) (id : Nat) (f : CfgGroup → CfgGroup) : Plane :=
  { p with grps := p.grps.map fun g => if g.id = id then f g else g }

/-- Drop a group with its writes; what they wrote reads as R59 says. -/
def Plane.dropGroup (p : Plane) (id : Nat) : Plane :=
  let ws := p.cfgQ.filter fun q => q.grp == id
  let p := { p with cfgQ := p.cfgQ.filter fun q => q.grp != id, grps := p.grps.filter fun g => g.id != id }
  ws.foldl (fun p q => if cfgMask q.addr = 0 then p else p.showCfg q.addr) p

/-- Whether a loop's swap waits: for its sample, or in another released group. -/
def Plane.swapPending (p : Plane) (l id : Nat) : Bool :=
  (p.loop l).swap.isSome || p.cfgQ.any fun q =>
    q.addr == loopCtlAddr l && q.grp != id && bit (q.mask &&& q.data) 0 && p.grps.any fun g => g.id == q.grp && g.rel.isSome

/-- At the release of a group a second swap of a loop is taken out of it and counted (R231). (DESIGN CHOICE, unsafe: assumption 21.) -/
def Plane.judgeSwaps (p : Plane) (id : Nat) : Plane :=
  let r := p.cfgQ.foldl (fun (x : List QWrite × List Nat × Nat) q =>
    let l := (q.addr - 0x460000) / 4
    if q.grp ≠ id ∨ q.addr < 0x460000 ∨ !bit (q.mask &&& q.data) 0 then (x.1 ++ [q], x.2)
    else if x.2.1.contains l || p.swapPending l id then (x.1 ++ [{ q with mask := q.mask &&& ~~~3#32 }], x.2.1, x.2.2 + 1)
    else (x.1 ++ [q], l :: x.2.1, x.2.2)) ([], [], 0)
  (List.range r.2.2).foldl (fun p _ => p.err 0x29) { p with cfgQ := r.1 }

/-- AUTH.MODE or AUTH.LEN changes in a group (R116). -/
def Plane.authChanges (p : Plane) (id : Nat) : Bool :=
  p.cfgQ.any fun q => q.grp == id && q.addr == Reg.RED_AUTH && ((merge q.mask (p.cfg q.addr) q.data ^^^ p.cfg q.addr) &&& 0xF01#32) != 0

/-- Release a group (R57, R58): nothing where it holds no write; discarded where a write of it was refused for want of room (R59). -/
def Plane.releaseGroup (p : Plane) (id now : Nat) : Plane :=
  match p.grps.find? fun g => g.id == id with
  | none => p
  | some g =>
    if g.bad ∨ !(p.cfgQ.any fun q => q.grp == id) then p.dropGroup id
    else
      let p := p.judgeSwaps id
      let p := if p.authChanges id then p.updWeir fun w => { w with modePending := true } else p
      p.updGrp id fun g => { g with held := none, rel := some (halfOf now) }

/-- Release the group that a path gathers, if any. -/
def Plane.releaseHeld (p : Plane) (path now : Nat) : Plane :=
  match p.heldGroup path with
  | some g => p.releaseGroup g.id now
  | none => p

/-- The number of the next new group: no group and no queued write has it. -/
def Plane.freshGrp (p : Plane) : Nat :=
  (p.grps.map CfgGroup.id ++ p.cfgQ.map QWrite.grp).foldl (fun m n => max m (n + 1)) p.nextGrp

/-- The group that takes a path's next write: the one it gathers, or a new one. -/
def Plane.openGroup (p : Plane) (path : Nat) (gather : Bool) : Plane × Nat :=
  match (if gather then p.heldGroup path else none) with
  | some g => (p, g.id)
  | none =>
    let g : CfgGroup := { id := p.freshGrp, held := if gather then some path else none }
    ({ p with grps := p.grps ++ [g], nextGrp := p.freshGrp + 1 }, g.id)

/-- Queue the word writes of one configuration write (R55, R57, R59), as (address, mask, data); the flag says that there was room. (DEDUCED, unsafe: assumption 23.) -/
def Plane.queueCfg (p : Plane) (path : Nat) (group : Bool) (ws : List (Nat × Word × Word)) (now : Nat) : Plane × Bool :=
  let gather := p.gathers path group
  if 1024 < p.cfgQ.length + ws.length then
    let p := (p.evt Reg.SYS_CFG_STAT 1).evt Reg.SYS_EVT 10
    if gather then
      let (p, id) := p.openGroup path true
      (p.updGrp id fun g => { g with bad := true }, false)
    else (p, false)
  else
    let (p, id) := p.openGroup path gather
    let p := { p with cfgQ := p.cfgQ ++ ws.map fun w => { addr := w.1, mask := w.2.1, data := w.2.2, grp := id } }
    let p := ws.foldl (fun p w => if cfgMask w.1 = 0 then p else p.showCfg w.1) p
    (if gather then p else p.releaseGroup id now, true)

/-- A configuration write that reaches a plane which is not active (R56). -/
def Plane.standbyWrite (p : Plane) (page : Nat) : Plane := (p.err page).evt Reg.SYS_EVT 11

/-- CFG_CTRL.HOLD and DISCARD (R58). (DEDUCED, unsafe: assumption 24.) -/
def Plane.cfgCtrl (p : Plane) (mask data : Word) (now : Nat) : Plane :=
  let w := mask &&& data
  let p := if bit mask 0 then
      (let p := p.wrF Reg.SYS_CFG_CTRL 0 0 (fld w 0 0)
       if bit w 0 ∨ bit w 1 then p else p.releaseHeld 0 now)
    else p
  if bit w 1 then
    (match p.heldGroup 0 with
      | some g => p.dropGroup g.id
      | none => p).wrF Reg.SYS_CFG_CTRL 0 0 0
  else p

/-! ### Table entries, loop tables and wake filters, written as a whole (R54, R131, R132, R235 to R237, R280) -/

/-- The window of an entry word: its number, the entry, the word in it, and its last word. -/
structure EntryPlace where
  win : Nat
  base : Nat
  word : Nat
  last : Nat
  page : Nat
deriving DecidableEq, Repr

/-- The entry that a write to an address goes to on a path, where it goes to one. -/
def Plane.entryPlace (p : Plane) (path a : Nat) : Option EntryPlace :=
  let off := a % 0x1000
  if 0x100000 ≤ a ∧ a < 0x120000 then some { win := 0, base := (a - 0x100000) / 16, word := a % 16 / 4, last := 3, page := 0x0B }
  else if 0x120000 ≤ a ∧ a < 0x140000 then some { win := 1, base := (a - 0x120000) / 32, word := a % 32 / 4, last := 7, page := 0x0A }
  else if a / 0x1000 = 0x29 ∧ 0x44 ≤ off ∧ off < 0x5C then
    some { win := 3, base := p.prdF path Reg.LOOP_L_SEL 8 0, word := (off - 0x44) / 4, last := 5, page := 0x29 }
  else if a / 0x1000 = 0x29 ∧ 0x74 ≤ off ∧ off < 0x8C then
    let w := p.prd path Reg.LOOP_S_SEL
    some { win := 5, base := 2 * fld w 11 0 + fld w 16 16, word := (off - 0x74) / 4, last := 5, page := 0x29 }
  else if a / 0x1000 = 0x35 ∧ 0x100 ≤ off ∧ off < 0x900 ∧ (off - 0x100) % 0x40 < 0x28 then
    some { win := 4, base := (off - 0x100) / 0x40, word := (off - 0x100) % 0x40 / 4, last := 9, page := 0x35 }
  else none

/-- The address in the image of word `k` of an entry. -/
def EntryPlace.addr (e : EntryPlace) (k : Nat) : Nat :=
  match e.win with
  | 0 => pmWord e.base k
  | 1 => atWord e.base k
  | 3 => loopRec e.base k
  | 5 => secWord (e.base / 2) (e.base % 2) k
  | _ => Reg.WAKE_MASK_0 e.base + 4 * k

/-- Drop a path's buffer of a window. -/
def Plane.dropBuf (p : Plane) (path win : Nat) : Plane := p.updPath path fun x => { x with bufs := x.bufs.filter fun e => e.1 != win }

/-- Put a lower word into a path's buffer (R54); a buffer of another entry is discarded and counted. -/
def Plane.bufferWord (p : Plane) (path : Nat) (e : EntryPlace) (mask data : Word) : Plane :=
  let old := (p.path path).bufs.find? fun b => b.1 == e.win
  let other := match old with
    | some b => b.2.base != e.base
    | none => false
  let words := match old with
    | some b => if other then [] else b.2.words
    | none => []
  let p := if other then p.err e.page else p
  let new : EntryBuf := { base := e.base, words := words ++ [(e.word, mask, data)] }
  p.updPath path fun x => { x with bufs := (e.win, new) :: x.bufs.filter fun b => b.1 != e.win }

/-- The tag of a marker word in a plane's program. -/
def Plane.markerTag (p : Plane) (i : Nat) : Nat := progN (p.scan.prog.getD []) (64 + i / 256) 1

/-- What a completed entry comes to: a Shore refusal, a refusal of its content with a reason, an ignored write that counts, or queued. -/
inductive EntryVerdict where
  | forbidden
  | bad (reason : Nat)
  | ignored
  | take
deriving DecidableEq, Repr

/-- Judge the content of a completed entry. -/
def Plane.judgeEntry (p : Plane) (tag : Nat) (e : EntryPlace) (w : Nat → Word) : EntryVerdict :=
  let bytes := wordBytes ((List.range (e.last + 1)).map w)
  match e.win with
  | 0 =>
    let x := pmDecode bytes
    let was := pointTag p.rd e.base
    if tag ≠ 0 ∧ (was ≠ tag ∨ x.tag ≠ was) then .forbidden
    else
      let r := pmReason x (tagActive p.rd x.tag) ((pmEntry p.rd (x.src % 8192)).kind != 0)
      if r ≠ 0 then .bad r else if pmTagsOk p.rd p.markerTag x then .take else .forbidden
  | 1 =>
    let h := headDecode bytes
    let was := entryTag p.rd e.base
    if tag ≠ 0 ∧ (was ≠ tag ∨ h.tag ≠ was) then .forbidden
    else
      let r := headReason h e.base p.rd bytes (tagActive p.rd h.tag)
      if r ≠ 0 then .bad r else if headTagsOk p.rd h then .take else .forbidden
  | 3 => match loopReason p.rd p.cfg e.base w with
    | 0 => .take
    | r => .bad r
  | 5 => match p.sectionReason (e.base / 2) (e.base % 2) (w 5) with
    | 0 => .take
    | r => .bad r
  | _ => if p.tagFree (fld (w 9) 13 8) false then .take else .ignored

/-- Record the refusal of an entry's content (R132, R236). -/
def Plane.badEntry (p : Plane) (e : EntryPlace) (reason : Nat) : Plane :=
  let p := p.err e.page
  match e.win with
  | 0 => (p.wr Reg.PMAP_BAD_IDX (BitVec.ofNat 32 (e.base + 65536 * reason))).evt Reg.PMAP_EVT 8
  | 1 => (p.wr Reg.ACT_BAD_IDX (BitVec.ofNat 32 (e.base + 65536 * reason))).evt Reg.ACT_EVT 8
  | 3 => (p.wr Reg.LOOP_BAD (BitVec.ofNat 32 (e.base + 65536 * reason))).evt Reg.LOOP_EVT 8
  | _ => (p.wr Reg.LOOP_BAD (BitVec.ofNat 32 (e.base / 2 + 65536 * reason + 2 ^ 24))).evt Reg.LOOP_EVT 8

/-- A write to an entry word that the Shore check permits. A lower word is buffered; the highest completes the
entry. A forbidden completion leaves the buffer as it is (R131, R308). -/
def Plane.entryWrite (p : Plane) (path : Nat) (tag : Tag) (group : Bool) (e : EntryPlace) (a : Nat) (mask data : Word) (now : Nat) : Plane :=
  if e.word ≠ e.last then p.bufferWord path e mask data
  else if !p.isActive then p.standbyWrite e.page
  else
    let w (k : Nat) : Word :=
      let old := p.bufWord path e.win e.base k fun k => p.rd (e.addr k)
      if k = e.last then merge mask old data else old
    -- a write that completes one entry while the buffer holds another discards the latter
    let other := match (p.path path).bufs.find? fun b => b.1 == e.win with
      | some b => b.2.base != e.base
      | none => false
    match p.judgeEntry tag.toNat e w with
    | .forbidden => p.violate path tag true 4 a now
    | .bad r => ((if other then p.err e.page else p).dropBuf path e.win).badEntry e r
    | .ignored => p.err e.page
    | .take =>
      let ws := (List.range (e.last + 1)).map fun k => (e.addr k, 0xFFFFFFFF#32, w k)
      let (q, ok) := p.queueCfg path group ws now
      if ok then (if other then q.err e.page else q).dropBuf path e.win else q

/-! ### Applying a group (R57, R60) -/

/-- Apply one queued write to the applied configuration, in its place among the others: a RUN command is taken up, and a GO takes the
items as they stand (R207, R218). -/
def Plane.applyWrite (p : Plane) (now : Nat) (q : QWrite) : Plane :=
  let m := q.mask &&& cfgMask q.addr
  let p := if m = 0 then p else { p with applied := Tab.put regDefault p.applied q.addr (merge m (p.cfg q.addr) q.data) }
  if q.addr = Reg.SCAN_RUN then p.updScan fun x => { x with cmd := x.cmd ++ [fld (q.mask &&& q.data) 2 0] }
  else if q.addr = Reg.SCAN_CHG_CTRL ∧ bit (q.mask &&& q.data) 8 then p.releaseChg (p.cfgF Reg.SCAN_CHG_CTRL 6 0) now
  else p

/-- Whether an address holds the tag of an object (R301, R315). -/
def tagAddr (a : Nat) : Bool :=
  let page := a / 0x1000
  let off := a % 0x1000
  (0x10 ≤ page && page ≤ 0x1F && 0x80 ≤ off && off < 0x180 && off % 0x20 == 0) || (0x38 ≤ page && page ≤ 0x3F && off == 0x40) ||
    (page == 0x24 && 0x80 ≤ off && off < 0xE0 && off % 8 == 0) || (0x31 ≤ page && page ≤ 0x34 && (off == 0x44 || off == 0x48)) ||
    (0x400000 ≤ a && a < 0x410000 && a % 32 == 0) || (0x100000 ≤ a && a < 0x140000)

/-- Points keep or lose their stations by the tags in force (R315); one of kind 3 keeps it where its port has moved to T0 (R129). (DESIGN CHOICE, unsafe: assumption 58.) -/
def Plane.judgeStations (p : Plane) : Plane :=
  p.pointIdx.foldl (fun p i =>
    let x := p.point i
    let e := p.pm i
    let lost := !pmTagsOk p.cfg p.markerTag e && !(e.kind == 3 && portTag p.cfg e.src == 0)
    if lost = x.lost then p
    else
      let p := p.setPoint i { x with lost := lost }
      if lost && inputKind (p.pm i).kind then p.pointBad i else p) p

/-- Commands and standing launches lose the paths that no longer carry their tag (R131, R315). -/
def Plane.judgeTags (p : Plane) (b : Nat) : Plane :=
  let foreign (path tag : Nat) : Bool := tag != 0 && !pathTagOk p.cfg path tag
  let p := p.cancelAll (fun x => foreign x.path x.tag.toNat && decide (b ≤ x.launch)) b
  p.stopStanding (fun h => foreign h.path h.tag) 3 b true

/-- Every path. -/
def allPaths : List Nat :=
  List.range 128 ++ (List.range 128).map (0x100 + ·) ++ (List.range 4).map (0x200 + ·) ++ (List.range 8).map (0x300 + ·)

/-- Whether a change lowers a path's capacity or raises its allowance (R116, R286). -/
def capacityLowered (f : FieldSide) (old new : Nat → Word) (path : Nat) : Bool :=
  if path < 0x80 then
    let speed (g : Nat → Word) : Nat := match fld (g (Reg.SWF_PORT_CFG path)) 1 0 with
      | 1 => 100
      | 2 => 1000
      | _ => (f.port path).rate
    speed new < speed old
  else if path < 0x200 then false
  else if path < 0x204 then
    let u := path - 0x200
    fld (old (Reg.WEIR_UPL_ALLOW u)) 7 0 < fld (new (Reg.WEIR_UPL_ALLOW u)) 7 0 ||
      (!uplinkTenG f new u && uplinkTenG f old u)
  else
    let n := path - 0x300
    min 7125 (fld (new (Reg.WEIR_CAN_BUDGET n)) 12 0) < min 7125 (fld (old (Reg.WEIR_CAN_BUDGET n)) 12 0) || new (Reg.CAN_NBT n) != old (Reg.CAN_NBT n) ||
      new (Reg.CAN_DBT n) != old (Reg.CAN_DBT n)

/-- Paths that a change disables or acts on as a disabling (R115, R116). -/
def Plane.judgePaths (p : Plane) (f : FieldSide) (old : Nat → Word) (b : Nat) : Plane :=
  let p := if bit (old Reg.WEIR_CTRL) 0 && p.cfgF Reg.WEIR_CTRL 0 0 == 0 then
      (p.cancelAll (fun x => decide (b ≤ x.launch)) b).stopStanding (fun _ => true) 3 b
    else p
  (allPaths.filter fun k => (pathDisabled p.cfg k && !pathDisabled old k) || capacityLowered f old p.cfg k).foldl (fun p k => p.disablePath k b) p

/-- Slots that a larger SCAN_SLOTS gives to the Scan Engine (R116). -/
def Plane.takeScanSlots (p : Plane) (b : Nat) : Plane :=
  let new := min 192 (p.cfgF Reg.WEIR_CFG 7 0)
  let p := (List.range 256).foldl (fun p n =>
    let x := p.slot n
    if 256 - new ≤ n ∧ n < 256 - min 192 p.weir.scanSlots ∧ x.scan.isNone ∧ (x.st = .booked ∨ x.st = .sent) ∧ b ≤ x.launch then
      p.finish n .cancelled 0 b else p) p
  p.updWeir fun w => { w with scanSlots := new }

/-- PTP.CTRL.SOFT_RST (R44, R93): the servo's state and the RW fields return to their reset values; RWS fields and the stored ones keep
theirs. -/
def Plane.ptpReset (p : Plane) : Plane :=
  let put (p : Plane) (a : Nat) (m : Word) : Plane :=
    { p with applied := Tab.put regDefault p.applied a (merge m (p.cfg a) (regDefault a)) }.showCfg a
  let p := put (put (put p Reg.PTP_ANN_GROUP 0xFFFFFFFF#32) Reg.PTP_ANN_PORT 0xFFFF#32) Reg.PTP_EVT_EN 0xFFFFFFFF#32
  let p := (((p.setSync 0 0).wr Reg.PTP_OFFSET 0).wr Reg.PTP_PATH 0).wr Reg.PTP_FOLLOW_ID 0
  let p := (((p.wr Reg.PTP_RESID 0).wr Reg.PTP_CYC_DIFF 0).wr Reg.PTP_ANN_RX 0).wr Reg.PTP_ANN_BAD 0
  let p := ((p.wr Reg.PTP_EVT 0).wr (Reg.PTP_PAGE * 0x1000 + 0x18) 0).updMpe fun m =>
    { m with ranks := [], sources := [], cyc := .none, adopt := none, cycDiff := 0, realign := false, trim := 0, trimTarget := 0, trimLimit := false }
  if p.mpe.st = .locked then p.lockNumbering else p

/-- The effects of a group's writes `ws` in a plane, once they are in the applied configuration; `old` is what was applied before. -/
def Plane.applyEffects (p : Plane) (f : FieldSide) (old : Nat → Word) (ws : List QWrite) (now : Nat) : Plane :=
  let hb := halfOf now
  let as := ws.map QWrite.addr
  let has (a : Nat) : Bool := as.contains a
  let entries (lo hi n : Nat) : List Nat := (as.filter fun a => lo ≤ a && a < hi).foldl (fun l a => insertNat ((a - lo) / n) l) []
  let heads := entries 0x120000 0x140000 32
  let recs := entries 0x400000 0x410000 32
  let p := (entries 0x100000 0x120000 16).foldl (fun p i => p.pointApply i (pmEntry old i)) p
  let p := if as.any tagAddr then (p.judgeStations).judgeTags now else p
  let p := p.judgePaths f old now
  let p := if has Reg.WEIR_CFG then p.takeScanSlots now else p
  let p := heads.foldl (fun p j => (p.setHead j { p.head j with sched := 0, foreign := false }).judgeHead f j hb) p
  let p := if as.any tagAddr then p.judgeTags now else p
  let p := recs.foldl (fun p l => p.loopApply f l hb) p
  let p := (ws.filter fun q => 0x460000 ≤ q.addr).foldl (fun p q => p.loopCtl ((q.addr - 0x460000) / 4) (q.mask &&& q.data)) p
  let p := if has Reg.MPE_PHASE_OFS ∧ p.cfg Reg.MPE_PHASE_OFS ≠ old Reg.MPE_PHASE_OFS ∧ p.mpe.st = .locked then p.relock now else p
  let p := if has Reg.PTP_CTRL ∧ p.cfgF Reg.PTP_CTRL 0 0 = 0 then (p.setSync 0 0).updMpe fun m => { m with ranks := [] } else p
  let p := if ws.any fun q => q.addr == Reg.PTP_CTRL && bit (q.mask &&& q.data) 1 then p.ptpReset else p
  let p := if ws.any fun q => q.addr == Reg.PTP_CYC_CTRL && bit (q.mask &&& q.data) 0 then p.updMpe fun m => { m with realign := true } else p
  -- pulse outputs (R191)
  let p := (List.range 8).foldl (fun p n =>
    let cfg := p.cfg (Reg.PULSE_PO_CFG n)
    let x : PulseSt := Tab.get (fun _ => {}) p.pulses n
    let moved := fld cfg 31 16 != fld (old (Reg.PULSE_PO_CFG n)) 31 16 || p.cfg (Reg.PULSE_PO_CONST n) != old (Reg.PULSE_PO_CONST n)
    let x := if moved then { x with residue := 0, last := p.meter.count (fld cfg 31 16) } else x
    let x := if has (Reg.PULSE_PO_CFG n) ∧ !bit cfg 0 then { x with owed := 0 } else x
    { p with pulses := Tab.put (fun _ => {}) p.pulses n x }) p
  -- intents (R150), and sessions of tags no longer active (R313)
  let p := (List.range 128).foldl (fun p n => if has (Reg.PORTG_STATE (n / 8) (n % 8)) then p.bookIntent f n hb else p) p
  let p := p.closeSessions fun x => x.opened && x.tag != 0 && !tagActive p.cfg x.tag.toNat
  p.commitRegs as

/-- A plane applies groups at the boundary `now`. -/
def Plane.applyGroups (p : Plane) (f : FieldSide) (ids : List Nat) (now : Nat) : Plane :=
  if ids = [] then p
  else
    let ws := p.cfgQ.filter fun q => ids.contains q.grp
    let old := p.cfg
    let p := { p with cfgQ := p.cfgQ.filter fun q => !ids.contains q.grp, grps := p.grps.filter fun g => !ids.contains g.id }
    let p := (ws.foldl (fun p q => p.applyWrite now q) p).applyEffects f old ws now
    let p := p.wr Reg.SYS_CFG_EPOCH (p.rd Reg.SYS_CFG_EPOCH + BitVec.ofNat 32 ids.length)
    (p.wr64 Reg.SYS_CFG_AT now).evt Reg.SYS_EVT 9

/-- Launches at the field side that a change has taken back are withdrawn (R115): of CANCELLED commands and of intents booked anew. A standing firing that
is built is made as built (R143). -/
def State.withdrawCancelled (s : State) : State :=
  s.withdraw fun l =>
    let p := s.plane l.plane
    if !l.standing then (p.slot l.slot).seq == l.seq && (p.slot l.slot).st == .cancelled
    else
      0x10000 ≤ l.seq && !(p.weir.books.any fun b => b.src == .intent (l.seq - 0x10000) && b.tick == l.tick)

/-- The effects of applied writes at the field side, which follows the active plane's configuration. (DEDUCED, unsafe: assumption 36.) -/
def State.applyField (s : State) (old : Nat → Word) (ws : List QWrite) : State :=
  let as := ws.map QWrite.addr
  let has (a : Nat) : Bool := as.contains a
  let g := s.cfg
  let s := (List.range 128).foldl (fun s n =>
    let c := Reg.PORTG_CFG (n / 8) (n % 8)
    let s := if has c then s.applyPortCfg n (old c) else s
    let s := if has (Reg.PORTG_STATE (n / 8) (n % 8)) then s.applyIntent n else s
    let w := Reg.SWF_PORT_CFG n
    let s := if has w ∧ (old w &&& 7) ≠ (g w &&& 7) ∧ (s.fs.port n).link then s.portDown n else s
    if portTag old n = portTag g n then s
    else s.field fun f => { f with fab := { f.fab with fdb := f.fab.fdb.filter fun e => e.port != n } }) s
  let s := (List.range 8).foldl (fun s ch =>
    let touched := [Reg.CAN_CTRL ch, Reg.CAN_CFG ch, Reg.CAN_NBT ch, Reg.CAN_DBT ch].any has
    let ctrl := ws.filter fun q => q.addr == Reg.CAN_CTRL ch
    if touched then
      s.applyCan ch old (ctrl.any fun q => bit q.mask 0) (ctrl.any fun q => bit (q.mask &&& q.data) 8)
    else s) s
  let s := (List.range 4).foldl (fun s u =>
    if has (Reg.UPL_CFG u) ∧ bit (old (Reg.UPL_CFG u)) 2 ≠ bit (g (Reg.UPL_CFG u)) 2 then
      let x := s.fs.uplink u
      if !bit (g (Reg.UPL_CFG u)) 2 then (s.pauseEnd (128 + u)).field fun f => f.setUplink u { f.uplink u with pauseOk := false }
      else if x.link ∧ x.tenG then s.field fun f => f.setUplink u { x with pauseOk := true }
      else s
    else s) s
  -- bookings from this boundary on go by the new figures (R116)
  let s := (List.range 128).foldl (fun s n =>
    let w := Reg.SWF_PORT_CFG n
    if has w ∧ fld (old w) 1 0 ≠ fld (g w) 1 0 then s.field fun f => f.setPort n { f.port n with
      rate := if fld (g w) 1 0 = 1 then 100 else if fld (g w) 1 0 = 2 then 1000 else (f.port n).rate }
    else s) s
  let s := (List.range 4).foldl (fun s u =>
    if has (Reg.UPL_CFG u) then s.field fun f => f.setUplink u { f.uplink u with rate := uplinkTenG f g u } else s) s
  -- an uplink whose laser is off, or whose forced mode is not its module's, has no link (R264, R283)
  let s := (List.range 4).foldl (fun s u =>
    if (has (Reg.UPL_CFG u) ∨ has (Reg.UPL_CTRL u)) ∧ (s.fs.uplink u).link ∧
        (!bit (g (Reg.UPL_CTRL u)) 0 ∨ uplinkTenG s.fs g u ≠ (s.fs.uplink u).tenG) then s.uplinkDown u else s) s
  let s := (List.range 63).foldl (fun s t =>
    if tagVid old t = tagVid g t then s
    else s.field fun f => { f with fab := { f.fab with fdb := f.fab.fdb.filter fun e => e.vid != tagVid old t } }) s
  (List.range 8).foldl (fun s n =>
    if has (Reg.PULSE_PO_CFG n) ∧ !bit (g (Reg.PULSE_PO_CFG n)) 0 then s.field fun f => f.setPulse n { f.pulse n with queued := 0 } else s) s

/-- The groups of a plane that are due at half-cycle `h`. -/
def Plane.dueGroups (p : Plane) (h : Nat) : List CfgGroup :=
  p.grps.filter fun g => match g.rel with
    | some r => decide (r + 2 ≤ h)
    | none => false

/-- The groups of a plane that it applies at a boundary, and those that it loses (R60). -/
def State.groupsOf (s : State) (i : PlaneId) : List Nat × List Nat :=
  let p := s.plane i
  let due := p.dueGroups (halfOf s.now)
  if !p.running then ([], [])
  else if p.isActive ∨ !(s.plane i.other).isActive then (due.map CfgGroup.id, [])
  else ((due.filter CfgGroup.acked).map CfgGroup.id, (due.filter fun g => !g.acked).map CfgGroup.id)

/-- The groups due at this boundary apply, in every plane that has them, before anything else there (R57, R60, R143). -/
def State.applyConfig (s : State) : State :=
  let h := halfOf s.now
  let lead := s.lead
  let old := (s.plane lead).cfg
  let ids := (s.groupsOf lead).1
  let ws := (s.plane lead).cfgQ.filter fun q => ids.contains q.grp
  let unacked := (s.plane lead).isActive && ((s.plane lead).dueGroups h).any fun g => !g.acked
  let s := if unacked then s.standbyLeaves else s
  let f := s.fs
  let s := [PlaneId.a, .b].foldl (fun s i =>
    let (mine, lost) := s.groupsOf i
    -- the ending half-cycle's energy goes to the tags and settings in force during it (R183, R191)
    s.upd i fun p => (lost.foldl Plane.dropGroup (if mine = [] then p else p.meterBoundary)).applyGroups f mine s.now) s
  if ws = [] then s else (s.applyField old ws).withdrawCancelled

/-- A released group crosses the sync link (R60): a plane that runs in step, or that rejoins with its image, takes and acknowledges it. -/
def State.syncGroup (s : State) (id : Nat) : State :=
  match s.active? with
  | none => s
  | some i =>
    let a := s.plane i
    let j := s.plane i.other
    match a.grps.find? fun g => g.id == id && g.rel.isSome && !g.acked with
    | none => s
    | some g =>
      if !(a.red.syncUp && j.red.syncUp && (j.red.role == .standby || (j.red.role == .resync && 1 ≤ j.red.phase))) then s
      else
        let ws := a.cfgQ.filter fun q => q.grp == id
        let s := s.upd i fun p => p.updGrp id fun g => { g with acked := true }
        s.upd i.other fun p =>
          let p := { p with cfgQ := p.cfgQ ++ ws, grps := p.grps ++ [{ g with acked := true }], nextGrp := max p.nextGrp (id + 1) }
          let p := if p.authChanges id then p.updWeir fun w => { w with modePending := true } else p
          ws.foldl (fun p q =>
            let p := if cfgMask q.addr = 0 then p else p.showCfg q.addr
            if sealCarried q.addr ∧ bit (q.mask &&& q.data) 31 then p.wrF q.addr 31 31 1 else p) p

/-! ### Meanings -/

/-- CONFIG_GROUP_APPLY (R57, R60): at a half-cycle boundary. -/
def execConfigGroupApply (s : State) : Host.Outcome State Fault Refusal :=
  .next (if s.now % 2048 = 0 then s.applyConfig else s)

/-- CONFIG_GROUP_SYNC (R60). -/
def execConfigGroupSync (group : Nat) (s : State) : Host.Outcome State Fault Refusal := .next (s.syncGroup group)

end Sys2Proof.Machine
end

