-- ==== Sys2Proof/Machine/Flags.lean ====
section
/-!
DEFINITION. What each register reads as: the status, flag and report fields that the machine computes, beside the fields that the
register image holds. A view has no side effect; latches and read-to-clear act in the bus operations.
-/
namespace Sys2Proof.Machine

/-- A number as a word. -/
abbrev w32 (n : Nat) : Word := BitVec.ofNat 32 n

/-- A truth as one bit. -/
abbrev b1 (b : Bool) : Nat := b.toNat

/-- Pack `n` fields of `k` bits, the first lowest. -/
def packFields (k n : Nat) (f : Nat → Nat) : Word :=
  w32 ((List.range n).foldl (fun a i => a + f i % 2 ^ k * 2 ^ (k * i)) 0)

/-! ### The common status bits (R44) -/

/-- STAT.BUSY: an operation started through the page has not finished. -/
def Plane.busy (p : Plane) (path page : Nat) : Bool :=
  if page = 0x00 then p.cfgQ != []
  else if page = 0x09 then (p.path path).cmdPending || p.prdF path Reg.CMD_ABORT_RESULT 2 0 == 1
  else if page = 0x28 then p.scan.checkAt.isSome
  else if page = 0x2C then p.red.drill.isSome
  else if page = 0x40 then p.keys.queue != [] || p.keys.run.isSome || p.keys.erase != []
  else if page = 0x41 then p.crypto.queue != [] || p.crypto.run.isSome
  else if page = 0x42 then p.boot.load.isSome
  else if page = 0x44 then p.tarn.run.isSome || p.tarn.next != [] || p.tarn.nextAll
  else if page = 0x45 then (List.range 9).any fun k => (p.path k).recPending.isSome
  else if page = 0x48 then p.rtc.write.isSome || p.rtc.shift.isSome
  else if page = 0x4C then (List.range 64).any fun b => (p.basin b).clearing
  else if page = 0x4D then p.bkg.run != []
  else if page = 0x50 then p.start.restart.isSome || p.start.drillThen.isSome || p.start.relayTest.isSome
  else false

/-- STAT.FAULT: the flags of the FAULT page that report a fault of the page's block. (DEDUCED, unsafe: assumption 27.) -/
def Plane.blockFault (p : Plane) (page : Nat) : Bool :=
  let pf (n : Nat) : Bool := bit (p.rd Reg.FAULT_PLANE_FLT) n
  let ff (n : Nat) : Bool := bit (p.rd Reg.FAULT_FIELD_FLT) n
  let wn (n : Nat) : Bool := bit (p.rd Reg.FAULT_WARN) n
  if page = 0x00 ∨ page = 0x50 then
    p.rd Reg.FAULT_PLANE_FLT != 0 || p.rd Reg.FAULT_FIELD_FLT != 0 || p.rd Reg.FAULT_WARN != 0
  else if page = 0x04 then pf 8
  else if page = 0x0C then pf 7 || wn 0
  else if 0x10 ≤ page ∧ page ≤ 0x1F then ff 6
  else if page = 0x20 then ff 0 || ff 1 || ff 2 || ff 3 || ff 12
  else if page = 0x24 then ff 8
  else if page = 0x28 then wn 1
  else if page = 0x2C then pf 9 || ff 10 || wn 2 || wn 5
  else if page = 0x30 then ff 7
  else if 0x38 ≤ page ∧ page ≤ 0x3F then ff 9
  else if page = 0x40 then pf 0 || pf 1 || pf 2 || wn 6
  else if page = 0x42 then pf 3
  else if page = 0x44 then wn 3
  else if page = 0x4C then pf 4 || pf 5
  else if page = 0x4D then ff 4 || ff 5
  else false

/-- STAT with the block's own bits. -/
def Plane.statWord (p : Plane) (path page own : Nat) : Word :=
  w32 (b1 p.running + 2 * b1 (p.busy path page) + 4 * b1 (p.blockFault page) + own)

/-! ### Event summary and interrupt (R47, R65, R304) -/

/-- Whether an enabled event is pending on a page. -/
def Plane.pageEvent (p : Plane) (page : Nat) : Bool :=
  (blockOf page).isSome && (p.rd (page * 0x1000 + 0xC) &&& p.rd (page * 0x1000 + 0x10)) != 0

/-- SYS.EVT_SUM_k with every page. -/
def Plane.evtSumAll (p : Plane) (k : Nat) : Word := packFields 1 32 fun i => b1 (p.pageEvent (32 * k + i))

/-- Pages whose summary bits a tag reads. -/
def Plane.sumReads (p : Plane) (page tag : Nat) : Bool :=
  if tag = 63 then bit (p.rd (page * 0x1000 + 0x14)) 8 else p.pageReads page tag

/-- SYS.EVT_SUM_k as a tag reads it (R304). -/
def Plane.evtSum (p : Plane) (tag k : Nat) : Word := packFields 1 32 fun i => b1 (p.pageEvent (32 * k + i) && p.sumReads (32 * k + i) tag)

/-- IRQ# is low: SYS.CTRL.IRQ_EN and any summary bit; high until READY (R65, R422). -/
def Plane.irq (p : Plane) : Bool :=
  p.running && bit (p.rd Reg.SYS_CTRL) 8 && (List.range 3).any fun k => p.evtSumAll k != 0

/-! ### Views of the pages -/

/-- SYS (chapter 2). -/
def State.viewSys (s : State) (i : PlaneId) (tag off : Nat) (w : Word) : Word :=
  let p := s.plane i
  if off = 0x40 ∨ off = 0x44 ∨ off = 0x48 then p.evtSum tag ((off - 0x40) / 4)
  else if off = 0x4C then w32 (i.num + 2 * b1 p.isActive + 4 * b1 (s.inStep i))
  else if off = 0x54 then w ||| w32 (b1 (p.cfgQ != []) + 65536 * p.cfgQ.length)
  else if off = 0x60 then lo32 s.now
  else if off = 0x64 then hi32 s.now
  else w

/-- TENANT.USE_0 to USE_3 (R318). -/
def Plane.viewUse (p : Plane) (tag k : Nat) : Word :=
  let u := p.useOf tag
  let n (j : Nat) : Nat := u.getD j 0
  if k = 0 then w32 (n 0 + 2 ^ 8 * n 1 + 2 ^ 12 * n 2 + 2 ^ 16 * n 3)
  else if k = 1 then w32 (n 4 + 2 ^ 16 * n 5)
  else if k = 2 then w32 (n 6 + 2 ^ 10 * n 7 + 2 ^ 16 * n 8)
  else w32 (n 9 + 2 ^ 8 * n 10)

/-- Whether no condition of R108 that applies to all paths holds (WEIR.STAT.ADMITTING). -/
def Plane.admitting (p : Plane) : Bool :=
  bit (p.cfg Reg.WEIR_CTRL) 0 && !p.weir.stopped && p.rdF Reg.FAULT_FIELD_FLT 11 10 == 0 && p.isActive && p.mpe.timeValid &&
    !p.mpe.realign && !p.weir.supplyShed

/-- Q_RES.USED and Q_CAP.CAP of a path and half-cycle (R101, R123): slots, for a PSE path those of its port group, µs for CAN, blocks for
a link; 0 for a number that names no path. -/
def Plane.resource (p : Plane) (f : FieldSide) (path k : Nat) : Nat × Nat :=
  let on (q : Booking → Bool) : List Booking := (inHalf p.weir.books k).filter q
  if path < 0x80 then ((on fun b => b.path == path).length, 4)
  else if 0x100 ≤ path ∧ path < 0x180 then
    ((on fun b => 0x100 ≤ b.path && b.path < 0x180 && (b.path - 0x100) / 8 == (path - 0x100) / 8).length, 2)
  else if 0x200 ≤ path ∧ path < 0x204 then ((on fun b => b.path == path).length, if (f.uplink (path - 0x200)).rate then 64 else 16)
  else if 0x300 ≤ path ∧ path < 0x308 then
    (((on fun b => b.path == path).map fun b => b.canUs).sum, min 7125 (p.cfgF (Reg.WEIR_CAN_BUDGET (path - 0x300)) 12 0))
  else if path = 0xF00 ∨ path = 0xF01 then (linkBooked p.weir k (path - 0xF00), linkCap)
  else (0, 0)

/-- SLOT_n (R123): a FREE slot reads 0. -/
def Slot.word (x : Slot) : Word :=
  if x.st = .free then 0
  else w32 (x.st.num + 16 * x.cause + 256 * x.tag.toNat + 2 ^ 14 * b1 x.g1 + 2 ^ 15 * b1 x.earliest + 65536 * (x.seq % 65536))

/-- Whether a tag sees what a slot holds. -/
def Slot.seen (x : Slot) (tag : Nat) : Bool := x.st == .free || tag == 0 || x.tag.toNat == tag

/-- WEIR and CMD (chapter 4). -/
def State.viewWeir (s : State) (i : PlaneId) (off : Nat) (w : Word) : Word :=
  let p := s.plane i
  if off = 0x44 then w32 (p.weir.gapMax + 256 * p.weir.g1Slack)
  else if 0x58 ≤ off ∧ off < 0x78 then (w &&& 0x1FFF#32) ||| w32 (65536 * min 65535 (canBlock p.cfg ((off - 0x58) / 4)))
  else if off = 0x8C then w32 p.inFlight
  else w

def State.viewCmd (s : State) (i : PlaneId) (path tag off : Nat) (w : Word) : Word :=
  let p := s.plane i
  let x := p.slot (p.prdF path Reg.CMD_SEL 7 0)
  let wide (v : Nat) (hi : Bool) : Word := if x.st = .free then 0 else if hi then hi32 v else lo32 v
  let q := p.resource s.fs (p.prdF path Reg.CMD_Q_SEL 15 0) (halfOf s.now + min 64 (max 1 (p.prdF path Reg.CMD_Q_SEL 22 16)))
  if 0x400 ≤ off ∧ off < 0x800 then (p.slot ((off - 0x400) / 4)).word
  else if 0xA0 ≤ off ∧ off < 0xC0 then
    packFields 1 32 fun j => let y := p.slot (8 * (off - 0xA0) + j); b1 (y.done && y.seen tag)
  else if off = 0x7C then wide x.seq false
  else if off = 0x80 ∨ off = 0x84 then
    wide (if x.moved then x.recovery.getD x.launch else x.launch) (off == 0x84)
  else if off = 0x88 ∨ off = 0x8C then wide x.deadline (off == 0x8C)
  else if off = 0x90 ∨ off = 0x94 then wide x.doneAt (off == 0x94)
  else if off = 0x9C then w32 (min 0x1FFFF q.1)
  else if off = 0xC0 then w32 q.2
  else w

/-- PMAP and ACT (R144, R145): the fields of entries of other tags read 0. -/
def Plane.viewTables (p : Plane) (page tag off : Nat) (w : Word) : Word :=
  let sees (t : Nat) : Bool := tag == 0 || tag == t
  if page = 0x0B then
    if off = 0x40 then w32 p.pointIdx.length
    else if 0x800 ≤ off then
      packFields 2 16 fun j => let k := 16 * ((off - 0x800) / 4) + j
                               if sees (pointTag p.rd k) ∧ (p.pm k).kind ≠ 0 then p.quality k else 0
    else w
  else if off = 0x44 then w32 (p.heads.countP fun e => e.2.st == .armed || e.2.st == .parked)
  else if 0x800 ≤ off then
    packFields 4 8 fun j => let k := 8 * ((off - 0x800) / 4) + j
                            if sees (entryTag p.rd k) then (p.head k).st.num else 0
  else w

/-- PORT_n.LIVE (R165). -/
def PortSt.live (x : PortSt) : Nat :=
  x.measured.num + 2 ^ 4 * x.classReq + 2 ^ 8 * x.cls + 2 ^ 12 * b1 x.dual +
    2 ^ 13 * b1 (x.fourPair && (x.measured == .powerUp || x.measured == .powered)) + 2 ^ 14 * b1 x.volt + 2 ^ 15 * b1 x.disagree +
    2 ^ 16 * x.fault + 2 ^ 20 * x.attempt + 2 ^ 24 * x.classReqB + 2 ^ 28 * x.clsB

/-- PORTG (R165): what the field side reports of the eight ports of a group. -/
def State.viewPortg (s : State) (i : PlaneId) (grp off : Nat) (w : Word) : Word :=
  let p := s.plane i
  let port (j : Nat) : PortSt := s.fs.port (8 * grp + j)
  let x := port ((off - 0x80) / 0x20)
  let n := 8 * grp + (off - 0x80) / 0x20
  let r := (off - 0x80) % 0x20
  if off = 0x40 then w32 ((List.range 8).map fun j => (port j).counted).sum
  else if off = 0x44 then w32 ((List.range 8).map fun j => (port j).power).sum
  else if off < 0x80 then w
  else if r = 4 then (w &&& 3#32) ||| w32 (256 * b1 (p.weir.intentBooks.any fun e => e.1 == n))
  else if r = 8 then w32 x.live
  else if r = 0xC then w32 x.power
  else if r = 0x10 then w32 (x.mv / 10 + 65536 * x.ma)
  else if r = 0x14 then w32 x.counted
  else w

/-- PWR (R166): what the field side reports to a plane that has completed start-up. -/
def State.viewPwr (s : State) (i : PlaneId) (off : Nat) (w : Word) : Word :=
  let x := s.fs.power
  if !(s.plane i).running then w
  else if off = 0x44 then w32 x.avail
  else if off = 0x48 then w32 s.fs.allocSum
  else if off = 0x4C then w32 (s.fs.ports.map fun e => e.2.power).sum
  else if off = 0x50 then w32 (s.supplyMode + 16 * x.vmin + 65536 * x.intake)
  else if off = 0x54 then w32 x.cells.toNat
  else if off = 0x64 then w32 (s.fs.ports.countP fun e => e.2.st == .waitBudget)
  else w

/-- METER (R194): CH_FAULT and the register that Q_SEL names; a tag that may not see it reads DENIED and 0 (R193). -/
def Plane.viewMeter (p : Plane) (path tag off : Nat) (w : Word) : Word :=
  let r := p.prdF path Reg.METER_Q_SEL 15 0
  let denied := meterRegValid r && tag != 0 && meterRegTag p.rd r != tag
  let v := if meterRegValid r && !denied then toTwos 64 (p.meterReg r) else 0
  if off = 0x40 then
    w32 (p.meter.acFaults + ((List.range 12).map fun n => 2 ^ (8 + n) * b1 (p.meter.bad (0x100 + n))).sum +
      2 ^ 24 * b1 (p.meter.bad 0x400) + 2 ^ 25 * b1 ((List.range 128).any fun n => p.meter.bad (0x200 + n)))
  else if off = 0x48 then w32 (b1 (meterRegValid r) + 2 * b1 denied)
  else if off = 0x50 then lo32 v
  else if off = 0x54 then hi32 v
  else w

/-- PULSE (R196). -/
def State.viewPulse (s : State) (i : PlaneId) (off : Nat) (w : Word) : Word :=
  let n := (off - 0x40) / 0x10
  if 0x40 ≤ off ∧ off % 0x10 = 8 then
    w32 (min 65535 (Tab.get (fun _ => {}) (s.plane i).pulses n : PulseSt).owed + 65536 * min 255 (s.fs.pulse n).queued)
  else if 0x40 ≤ off ∧ off % 0x10 = 0xC then w32 (s.fs.pulse n).made
  else w

/-- L_STAT of a loop (R238). -/
def LoopSt.stat (x : LoopSt) : Nat :=
  x.shown.num + 8 * x.bank + 2 ^ 4 * b1 x.swap.isSome + 2 ^ 5 * b1 x.atHi + 2 ^ 6 * b1 x.atLo + 2 ^ 7 * b1 x.held + 2 ^ 8 * b1 x.frozen +
    2 ^ 9 * b1 x.lstop + 2 ^ 10 * b1 x.sat + 2 ^ 11 * b1 x.dup + 2 ^ 12 * (x.consec % 8) + 2 ^ 16 * min 65535 x.ovr

/-- SCAN and LOOP (chapters 8 and 9): records and sections read as applied (R235). -/
def Plane.viewScan (p : Plane) (off : Nat) (w : Word) : Word :=
  if off = 0x50 then w32 (scanLimit (scanPeriod p.cfg))
  else if 0x100 ≤ off ∧ off < 0x300 ∧ off % 8 = 0 then w &&& 0xF0FFFFFF#32
  else w

/-- LOOP (R238): the records, L_STAT, the output and the last decision of the loop that L_SEL selects, the section that S_SEL
selects and the states of all loops. -/
def Plane.viewLoop (p : Plane) (path tag off : Nat) (w : Word) : Word :=
  let l := p.prdF path Reg.LOOP_L_SEL 8 0
  let sel := p.prd path Reg.LOOP_S_SEL
  let x := p.loop l
  if 0x44 ≤ off ∧ off < 0x5C then p.cfg (loopRec l ((off - 0x44) / 4))
  else if off = 0x60 then w32 x.stat
  else if off = 0x64 then w32 (toTwos 32 x.out)
  else if off = 0x68 then lo32 x.lastAt
  else if off = 0x6C then hi32 x.lastAt
  else if 0x74 ≤ off ∧ off < 0x8C then p.cfg (secWord (fld sel 11 0) (fld sel 16 16) ((off - 0x74) / 4))
  else if 0x800 ≤ off then
    packFields 4 8 fun j => let k := 8 * ((off - 0x800) / 4) + j
                            if tag = 0 ∨ tag = loopTag p.rd k then (p.loop k).shown.num else 0
  else w

/-- RED (R262): PROGRESS is a value the module gives no rule for. -/
def State.viewRed (s : State) (i : PlaneId) (off : Nat) (w : Word) : Word :=
  let p := s.plane i
  if off = 0x44 then w32 p.red.role.num
  else if off = 0x88 then (w &&& 2#32) ||| w32 (b1 p.red.syncUp)
  else if off = 0x90 then w32 (p.red.phase + 256 * (if p.red.phase = 0 then 0 else Config.free s.fresh % 101))
  else w

/-- The drop causes of the UPL counts in register order (R283). -/
def uplCause (k : Nat) : Nat := [cFcs, cRunt, cOversize, cCtl, cFilter, cEgdrop].getD k 0

/-- SWF and UPL (R282, R283). -/
def State.viewSwf (s : State) (i : PlaneId) (path off : Nat) (w : Word) : Word :=
  let n := (off - 0x600) / 4
  let phy : PhySt := Tab.get (fun _ => {}) s.fs.phy n
  let x := s.fs.port n
  if off = 0x58 then w32 s.fs.fab.fdb.length
  else if 0x60 ≤ off ∧ off < 0x80 then
    w32 (min 65535 (Tab.get (fun _ => 0) s.fs.fab.counts (countKey i ((s.plane i).prdF path Reg.SWF_CNT_SEL 6 0) ((off - 0x60) / 4))))
  else if 0x600 ≤ off ∧ off < 0x800 then
    w32 (b1 x.link + 2 * b1 (x.link && x.speed == 1000) + 4 * b1 phy.pauseRx + 8 * b1 phy.half + 16 * b1 phy.speedRefused)
  else w

def State.viewUpl (s : State) (i : PlaneId) (u off : Nat) (w : Word) : Word :=
  if 0x58 ≤ off ∧ off < 0x70 then w32 (min 65535 (Tab.get (fun _ => 0) s.fs.fab.counts (countKey i (128 + u) (uplCause ((off - 0x58) / 4)))))
  else w

/-- CAN (R299): the receive side is the plane's own, the transmit side the field side's. -/
def State.viewCan (s : State) (i : PlaneId) (ch off : Nat) (w : Word) : Word :=
  let p := s.plane i
  let c := s.fs.chan ch
  let r := p.rx ch
  if off = 0x60 then w32 (min 511 c.tec + 2 ^ 16 * min 255 c.rec_ + 2 ^ 24 * c.fc)
  else if off = 0x64 then w32 (c.lec + 8 * b1 c.lecData)
  else if off = 0x68 then w32 (rxHead p.cfg ch r + 65536 * (rxFull p.cfg ch r).length)
  else if off = 0x6C then w32 (if c.recovering then Config.free s.fresh % 129 else c.recov)
  else if 0x70 ≤ off ∧ off < 0x80 then
    packFields 1 32 fun j => let k := 8 * (off - 0x70) + j; b1 (!objTx p.cfg ch k && (r.obj k).full)
  else if off = 0x80 then w32 (c.tx.countP fun e => e.2.queued)
  else w

/-- KEY and BOOT (R351, R353). -/
def Plane.viewKey (p : Plane) (path off : Nat) (w : Word) : Word :=
  let n := p.prdF path Reg.KEY_K_SEL 7 0
  let word (b : List Byte) (k : Nat) : Word := w32 (ofLe (slice b (4 * k) 4))
  if off = 0x60 then w32 p.keysUsed
  else if 0x70 ≤ off ∧ off < 0x80 then word (p.keyDesc n) ((off - 0x70) / 4)
  else if 0x100 ≤ off ∧ off < 0x140 then word (p.keyPublic n) ((off - 0x100) / 4)
  else w

def Plane.viewBoot (p : Plane) (off : Nat) (w : Word) : Word :=
  if off = 0x40 ∨ off = 0x44 then
    (let x := p.boot.fw ((off - 0x40) / 4)
     w32 (x.st.num + 256 * x.svn + 65536 * x.step))
  else if off = 0x4C then w32 (p.boot.running + 2 * b1 (p.fw.st == .trial))
  else if off = 0x50 then w32 (p.boot.fc + 256 * p.boot.revoked.toNat)
  else if off = 0x6C ∨ off = 0x70 then w32 (p.boot.fw ((off - 0x6C) / 4)).version
  else w

/-- TARN (R378): LOCKS, the failures of the password that PW_CTRL selects, and the host window, whose refused words read 0. -/
def Plane.viewTarn (p : Plane) (path off : Nat) (w : Word) : Word :=
  let locks (k : Nat) (q : Nat → Bool) : Nat := ((List.range 7).map fun r => 2 ^ (k + r) * b1 (q r)).sum
  if off = 0x40 then w32 p.tarn.dirty.length
  else if off = 0x60 then
    w32 (locks 0 (fun r => p.tarn.locked.contains (2 * r)) + locks 8 (fun r => p.tarn.locked.contains (2 * r + 1)) +
      locks 16 (fun r => p.regionOpen path r 0) + locks 24 (fun r => p.regionOpen path r 1))
  else if off = 0x64 then setFld w 19 16 (Tab.get (fun _ => 0) p.tarn.fails (2 * fld w 2 0 + fld w 3 3))
  else if 0x800 ≤ off then (p.winRead path ((off - 0x800) / 4)).getD 0
  else w

/-- The oldest surviving circulating page (R374); 0 until there is one. -/
def EvrSt.oldest (e : EvrSt) : Nat := if e.page < 2048 then 0 else max 2048 (e.page - 10239)

/-- EVR (R379): the loaded record by PART. -/
def Plane.viewEvr (p : Plane) (path off : Nat) (w : Word) : Word :=
  if off = 0x44 then w32 p.evr.staging
  else if off = 0x48 then w32 p.evr.seqNext
  else if off = 0x4C then w32 p.evr.page
  else if off = 0x50 then w32 p.evr.oldest
  else if 0x800 ≤ off then
    w32 (ofLe (slice (p.path path).loaded (2048 * p.prdF path Reg.EVR_RD_CTRL 8 8 + (off - 0x800)) 4))
  else w

/-- Units of 1/256 s to the next firing of a periodic unit (R395); 0 while it is not enabled. -/
def Plane.perRemain (p : Plane) (k now : Nat) : Nat :=
  if p.rdF (Reg.RTC_PER_CFG k) 0 0 = 0 then 0
  else
    let len := p.rtc.perLen.getD k 256
    len - (p.tt now - p.rtc.perTt.getD k 0) * 256 / 1000000000

/-- RTC (R397). -/
def Plane.viewRtc (p : Plane) (now off : Nat) (w : Word) : Word :=
  if off = 0x40 then w32 (p.subsec now)
  else if off = 0x44 then timeWord p.rtc.secs
  else if off = 0x48 then dateWord p.rtc.secs
  else if off = 0x4C then w32 p.rtc.secs
  else if off = 0x60 then (w &&& 0xFF#32) ||| w32 (256 * b1 p.rtc.pwron.isSome)
  else if off = 0x308 ∨ off = 0x318 then w32 (p.perRemain ((off - 0x308) / 0x10) now)
  else w

/-- RTC.EVT as a tag reads it (R397): the bits of the units that it reaches. -/
def Plane.rtcEvtMask (p : Plane) (tag : Nat) : Word :=
  if tag = 0 then 0xFFFFFFFF#32
  else
    let page := p.pageReads 0x48 tag
    packFields 1 32 fun j =>
      if 8 ≤ j ∧ j < 22 then
        (let t := fld (p.rd (Reg.RTC_ALM_CFG (j - 8))) 13 8
         b1 (if t = 0 then page else t == tag))
      else b1 page

/-- MEM and BKG (R417, R418). -/
def Plane.viewMem (p : Plane) (path off : Nat) (w : Word) : Word :=
  let n := p.prdF path Reg.MEM_SEL 5 0
  let x := p.basin n
  if off = 0x44 then x.cfg
  else if off = 0x48 then w32 (x.st + 4 * b1 x.fault + 8 * b1 x.clearing + 16 * b1 (basinFixed n) + 256 * min 15 x.spares)
  else if 0x60 ≤ off ∧ off < 0x88 then w32 (min 65535 (x.conf.getD ((off - 0x60) / 4) 0))
  else if 0xA0 ≤ off ∧ off < 0xB0 then packFields 2 16 fun j => (p.basin (4 * (off - 0xA0) + j)).st
  else w

/-- Whole seconds since the oldest of some times of true time, counted from the release of reset where an object has none. -/
def Plane.ageOf (p : Plane) (t : Tab Nat) (l : List Nat) (now : Nat) : Nat :=
  l.foldl (fun m k => max m ((p.tt now - max (Tab.get (fun _ => 0) t k) p.start.releaseTt) / 1000000000)) 0

def State.viewBkg (s : State) (i : PlaneId) (off : Nat) (w : Word) : Word :=
  let p := s.plane i
  if off = 0x40 then w ||| 0x10#32
  else if off = 0x50 then w32 (min 65535 (p.ageOf p.bkg.scrubTt ((List.range 64).filter fun b => (p.basin b).st == 0) s.now))
  else if off = 0x5C then
    w32 (min 65535 (p.ageOf p.bkg.leakTt ((List.range 128).filter fun n => (s.fs.port n).st != .powered && (s.fs.port n).st != .powerUp) s.now))
  else if off = 0x60 then w32 (min 65535 p.bkg.lastUsed)
  else w

/-- FAULT (R439). -/
def Plane.viewFault (p : Plane) (off : Nat) (w : Word) : Word :=
  if off = 0x54 then (w &&& 0xFFFF000F#32) ||| w32 (16 * (3 - min 3 p.recentAutos.length)) else w

/-- The block's own bits of STAT. -/
def State.statOwn (s : State) (i : PlaneId) (page : Nat) : Nat :=
  let p := s.plane i
  let m := p.mpe
  let stored (hi lo : Nat) : Nat := 2 ^ lo * p.rdF (page * 0x1000 + 8) hi lo
  match page with
  | 0x04 => 2 ^ 8 * m.st.num + 2 ^ 11 * b1 m.slw + 2 ^ 12 * b1 m.timeValid + 2 ^ 13 * m.phGood.toNat
  | 0x05 => 2 ^ 8 * m.sync + 2 ^ 10 * m.cyc.num + 2 ^ 12 * b1 m.trimLimit + 2 ^ 13 * b1 m.realign
  | 0x08 => 2 ^ 8 * b1 p.admitting
  | 0x20 =>
    let x := s.fs.power
    if !p.running then 0
    else 2 ^ 8 * b1 x.ride + 2 ^ 9 * b1 x.shed + 2 ^ 10 * b1 (decide (x.avail < 6000000)) + 2 ^ 11 * b1 (x.cells == 0xF)
  | 0x24 => 2 ^ 8 * b1 (p.meter.drifts != [])
  | 0x28 => 2 ^ 8 * p.scan.st.num + 2 ^ 10 * b1 p.scan.staged.isSome + stored 13 11 + 2 ^ 14 * b1 (p.scan.forces != [])
  | 0x29 => 2 ^ 8 * b1 (p.loops.any fun e => e.2.shown == .hold)
  | 0x2C => 2 ^ 8 * b1 (s.inStep i) + 2 ^ 9 * b1 p.red.selfOk + 2 ^ 10 * b1 p.red.drill.isSome + 2 ^ 11 * b1 p.red.syncUp +
      2 ^ 12 * b1 p.red.noAuth
  | 0x30 => 2 ^ 8 * b1 (decide (16384 ≤ s.fs.fab.fdb.length))
  | 0x44 => 2 ^ 8 * b1 p.tarn.run.isSome + stored 10 9
  | 0x45 => 2 ^ 8 * b1 p.evr.foundingFull + 2 ^ 9 * b1 p.evr.wrapped
  | 0x48 => 2 ^ 8 * b1 p.rtc.write.isSome + 2 ^ 9 * b1 p.rtc.shift.isSome + 2 ^ 10 * b1 p.rtc.osf + 2 ^ 11 * b1 p.rtc.lost +
      2 ^ 12 * b1 p.rtc.crystal + 2 ^ 13 * b1 p.red.syncUp
  | 0x4C => 2 ^ 8 * b1 ((List.range 64).any fun b => (p.basin b).fault)
  | 0x50 => 2 ^ 8 * b1 (p.rd Reg.FAULT_PLANE_FLT != 0) + 2 ^ 9 * b1 (p.rd Reg.FAULT_FIELD_FLT != 0) + 2 ^ 10 * b1 s.fs.stopped +
      2 ^ 11 * b1 s.fs.relay + stored 12 12
  | _ =>
    if 0x10 ≤ page ∧ page ≤ 0x1F then
      ((List.range 8).map fun j =>
        let st := (s.fs.port (8 * (page - 0x10) + j)).measured
        2 ^ (8 + j) * b1 (st == .powerUp || st == .powered)).sum
    else if 0x31 ≤ page ∧ page ≤ 0x34 then
      let x := s.fs.uplink (page - 0x31)
      2 ^ 8 * b1 x.link + 2 ^ 9 * b1 (x.link && x.tenG) + 2 ^ 10 * b1 x.pauseOk + 2 ^ 11 * b1 x.paused +
        2 ^ 12 * b1 (s.fs.fab.fwd.any fun e => e.2 == page - 0x30) + 2 ^ 13 * b1 x.module.isSome
    else if 0x38 ≤ page ∧ page ≤ 0x3F then
      let ch := page - 0x38
      let c := s.fs.chan ch
      2 ^ 8 * b1 (!p.isActive || bit (p.cfg (Reg.CAN_CFG ch)) 0) + 2 ^ 9 * c.fc + 2 ^ 11 * b1 (decide (96 ≤ c.tec) || decide (96 ≤ c.rec_)) +
        2 ^ 12 * b1 c.recovering + 2 ^ 13 * b1 (s.fs.supplyOk ch)
    else stored 31 8

/-! ### The message memory (R298) -/

/-- FLAGS and DLC of a frame's object, in bits 8 to 20 of its first word. -/
def CanMsg.head (m : CanMsg) : Nat :=
  2 ^ 8 * b1 m.ide + 2 ^ 9 * b1 m.fdf + 2 ^ 10 * b1 m.brs + 2 ^ 11 * b1 m.esi + 2 ^ 12 * b1 m.rtr + 2 ^ 16 * (m.dlc % 16)

/-- Word `k` of an 80-byte object with its first word, the top bits of its identifier word, its frame and its stamp. -/
def objWord (first idTop : Nat) (m : CanMsg) (stamp k : Nat) : Word :=
  if k = 0 then w32 first
  else if k = 1 then w32 (m.ident % 2 ^ 29 + 2 ^ 29 * idTop)
  else if k = 2 then lo32 stamp
  else if k = 3 then hi32 stamp
  else w32 (ofLe (slice m.data (4 * (k - 4)) 4))

/-- Word `k` of message object `n` of a channel: transmit objects as the field side reports them, receive objects as this plane holds
them. -/
def State.viewObj (s : State) (i : PlaneId) (ch n k : Nat) : Word :=
  let p := s.plane i
  if objTx p.cfg ch n then
    let x := (s.fs.chan ch).obj n
    objWord (x.st.num + 8 * (x.attempts % 32) + x.msg.head + 2 ^ 20 * x.retry + 2 ^ 24 * x.tag) x.err x.msg x.stamp k
  else
    let x := (p.rx ch).obj n
    objWord (b1 x.full + x.msg.head + 2 ^ 13 * b1 x.shadow.isSome + 2 ^ 24 * x.tag) 0 x.msg x.stamp k

/-- The TAG byte of the transmit object that an address names (R53, R298). -/
def State.txTag (s : State) (i : PlaneId) (a : Nat) : Option Nat :=
  let ch := (a - 0x140000) / 0x3000
  let n := (a - 0x140000) % 0x3000 / 80
  if 0x140000 ≤ a ∧ a < 0x158000 ∧ n < 128 ∧ objTx (s.plane i).cfg ch n then some ((s.fs.chan ch).obj n).tag else none

/-! ### What a read returns -/

/-- The SYS page with every summary bit, as it is copied for the other plane's alias (R52). -/
def State.sysCopy (s : State) (i : PlaneId) : Tab Word :=
  let p := s.plane i
  ((List.range 29).foldl (fun t k =>
    let off := 4 * k
    let w := if off = 0 then idWord 0
      else if off = 8 then p.statWord 0 0 0
      else match regAt off with
        | some r => w32 (r.row.rw ||| r.row.rws ||| r.row.w1c ||| r.row.rc ||| r.row.ro) &&& s.viewSys i 0 off (p.rd off)
        | none => 0
    Tab.put (fun _ => (0 : Word)) t off w) [])

/-- The alias (R52): 0 while the sync link is down. -/
def Plane.viewAlias (p : Plane) (tag off : Nat) : Word :=
  if !p.red.syncUp then 0 else
  match p.alias_ with
  | none => 0
  | some t =>
    let w := Tab.get (fun _ => (0 : Word)) t off
    if 0x40 ≤ off ∧ off < 0x4C then w &&& packFields 1 32 fun j => b1 (p.sumReads (8 * (off - 0x40) + j) tag) else w

/-- A register of a block page, before its masks. -/
def State.viewPage (s : State) (i : PlaneId) (path tag page off : Nat) (w : Word) : Word :=
  let p := s.plane i
  if off = 8 then p.statWord path page (s.statOwn i page)
  else if 0x10 ≤ page ∧ page ≤ 0x1F then s.viewPortg i (page - 0x10) off w
  else if 0x31 ≤ page ∧ page ≤ 0x34 then s.viewUpl i (page - 0x31) off w
  else if 0x38 ≤ page ∧ page ≤ 0x3F then s.viewCan i (page - 0x38) off w
  else match page with
    | 0x00 => s.viewSys i tag off w
    | 0x02 =>
      if 0x44 ≤ off ∧ off < 0x54 then p.viewUse (p.prdF path Reg.TENANT_USE_SEL 5 0) ((off - 0x44) / 4)
      else if off = 0x100 then w ||| 0x10000#32 else w
    | 0x05 => if off = 0x54 then Config.fuse 0 else w
    | 0x08 => s.viewWeir i off w
    | 0x09 => s.viewCmd i path tag off w
    | 0x0A => p.viewTables page tag off w
    | 0x0B => p.viewTables page tag off w
    | 0x0C => if 0x60 ≤ off ∧ off < 0x68 then w32 (min 0x1FFFF ((p.weir.load.getD 0 []).getD ((off - 0x60) / 4) 0)) else w
    | 0x20 => s.viewPwr i off w
    | 0x24 => p.viewMeter path tag off w
    | 0x26 => s.viewPulse i off w
    | 0x28 => p.viewScan off w
    | 0x29 => p.viewLoop path tag off w
    | 0x2C => s.viewRed i off w
    | 0x30 => s.viewSwf i path off w
    | 0x40 => p.viewKey path off w
    | 0x42 => p.viewBoot off w
    | 0x44 => p.viewTarn path off w
    | 0x45 => p.viewEvr path off w
    | 0x48 => if off = 0xC then w &&& p.rtcEvtMask tag else p.viewRtc s.now off w
    | 0x4C => p.viewMem path off w
    | 0x4D => s.viewBkg i off w
    | 0x50 => p.viewFault off w
    | _ => w

/-- What the word at a byte address reads as, on a path and with a tag, where the Shore check permits the read: fields without a read
code read 0 (R18, R20), and before READY so do the fields recalled from the store (R422). -/
def State.view (s : State) (i : PlaneId) (path tag a : Nat) : Word :=
  let p := s.plane i
  let page := a / 0x1000
  let off := a % 0x1000
  if page = 0x1F0 then p.viewAlias tag off
  else if isWindow page then
    if a < 0x140000 then p.rd a
    else
      let o := (a - 0x140000) % 0x3000
      if o < 10240 then s.viewObj i ((a - 0x140000) / 0x3000) (o / 80) (o % 80 / 4) else 0
  else match regAt a with
    | none => if off = 0 then idWord page else 0
    | some r =>
      let m := w32 (r.row.rw ||| r.row.rws ||| r.row.w1c ||| r.row.rc ||| r.row.ro)
      let m := if p.running then m else m &&& ~~~w32 r.row.tarn
      m &&& s.viewPage i path tag page off (if r.row.perPath then p.prd path a else p.rd a)

end Sys2Proof.Machine
end

