-- ==== Sys2Proof/Machine/Bus.lean ====
section
/-!
DEFINITION. One access of a word over the Host Register Port or in a Moarno session (chapter 2): the Shore check, latches and held
words, read-to-clear, write-one-to-clear, the operations that a write starts, and the hand-over of configuration writes to the queue.
-/
namespace Sys2Proof.Machine

/-- What an access of one word comes to: the state, the word read, and whether the Shore check permits it. -/
structure BusAns where
  st : State
  word : Word := 0
  ok : Bool := true
deriving DecidableEq, Repr

/-- Whether a plane performs an access at all (R422). -/
def Plane.answers (p : Plane) (path : Nat) (tag : Tag) (a : Nat) : Bool :=
  match p.phase with
  | .ready => true
  | .recalled => path == 0 && (tag == 0 || tag == 63) && [0x00, 0x42, 0x50].contains (a / 0x1000)
  | _ => false

/-- An access to an unmapped page (R40). -/
def Plane.unmapped (p : Plane) : Plane := (p.bump Reg.SYS_UNMAP_CNT 15 0).evt Reg.SYS_EVT 8

/-- The rule of R303 that forbids an access, 0 for none. (DEDUCED, unsafe: assumption 20.) -/
def State.forbids (s : State) (i : PlaneId) (path : Nat) (tag : Tag) (write : Bool) (mask data : Word) (a : Nat) : Nat :=
  (s.plane i).shore { path := path, tag := tag.toNat, write := write, mask := mask, data := data, addr := a, txTag := s.txTag i a }

/-- Newly released groups start across the sync link (R60): the standby has them a tick later. -/
def State.sendGroups (s : State) (old : List CfgGroup) (i : PlaneId) : State :=
  ((s.plane i).grps.filter fun g => g.rel.isSome && !g.acked && !(old.any fun o => o.id == g.id && o.rel.isSome)).foldl
    (fun s g => s.later (s.now + 1) (.configGroupSync g.id)) s

/-! ### Reads -/

/-- The high halves that a read latches (R49, R384). -/
def latches (a : Nat) (r : RegAt) : List Nat :=
  if r.row.wide && !r.high then [a + 4]
  else if a = Reg.RTC_SUBSEC then [Reg.RTC_TIME, Reg.RTC_DATE, Reg.RTC_SECS] else []

/-- A path's latched word. -/
def Plane.latched (p : Plane) (path a : Nat) : Option Word := Tab.get (fun _ => none) (p.path path).latch a

/-- Set or use up a path's latch. -/
def Plane.setLatch (p : Plane) (path a : Nat) (w : Option Word) : Plane :=
  p.updPath path fun x => { x with latch := Tab.put (fun _ => none) x.latch a w }

/-- A read-to-clear register is read (R50). -/
def State.rcClear (s : State) (i : PlaneId) (path a : Nat) (rc : Nat) : State :=
  let page := a / 0x1000
  let off := a % 0x1000
  let zero (key : Nat) : State := s.field fun f => { f with fab := { f.fab with counts := Tab.put (fun _ => 0) f.fab.counts key 0 } }
  if page = 0x30 ∧ 0x60 ≤ off ∧ off < 0x80 then zero (countKey i ((s.plane i).prdF path Reg.SWF_CNT_SEL 6 0) ((off - 0x60) / 4))
  else if 0x31 ≤ page ∧ page ≤ 0x34 ∧ 0x58 ≤ off ∧ off < 0x70 then zero (countKey i (128 + (page - 0x31)) (uplCause ((off - 0x58) / 4)))
  else s.upd i fun p =>
    if page = 0x4C ∧ 0x60 ≤ off ∧ off < 0x88 then
      (let b := p.prdF path Reg.MEM_SEL 5 0
       p.setBasin b { p.basin b with conf := (p.basin b).conf.set ((off - 0x60) / 4) 0 })
    else p.wr a (p.rd a &&& ~~~w32 rc)

/-- Whether a permitted read shows less than the word holds, which counts as a violation (R123, R193). -/
def State.masked (s : State) (i : PlaneId) (path : Nat) (tag : Tag) (a : Nat) : Bool :=
  let p := s.plane i
  if Reg.CMD_DONE 0 ≤ a ∧ a ≤ Reg.CMD_DONE 7 then
    (List.range 32).any fun j => let x := p.slot (8 * (a - Reg.CMD_DONE 0) + j); !x.seen tag.toNat
  else if a = Reg.METER_Q_VAL ∨ a = Reg.METER_Q_VAL + 4 then
    bit (p.viewMeter path tag.toNat 0x48 0) 1
  else false

/-- What a permitted read does beside returning the word. -/
def State.readEffects (s : State) (i : PlaneId) (path : Nat) (tag : Tag) (a : Nat) : State :=
  let s := if s.masked i path tag a then s.upd i fun p => p.violate path tag false 4 a s.now else s
  let s := if a = Reg.RED_RESYNC ∨ (0x38 ≤ a / 0x1000 ∧ a / 0x1000 ≤ 0x3F ∧ a % 0x1000 = 0x6C) then { s with fresh := s.fresh + 1 } else s
  if a / 0x1000 = 0x44 ∧ 0x800 ≤ a % 0x1000 ∧ ((s.plane i).winRead path ((a % 0x1000 - 0x800) / 4)).isNone then
    s.upd i fun p => p.err Reg.TARN_PAGE
  else s

/-- A read of one word (R39, R40, R49, R50, R302, R422). -/
def State.readWord (s : State) (i : PlaneId) (path : Nat) (tag : Tag) (a : Nat) : BusAns :=
  if !(s.plane i).answers path tag a then { st := s }
  else
    let rule := s.forbids i path tag false 0xFFFFFFFF#32 0 a
    if rule ≠ 0 then { st := s.upd i fun p => p.violate path tag false rule a s.now, ok := false }
    else if !mapped (a / 0x1000) then { st := s.upd i Plane.unmapped }
    else
      let w := s.view i path tag.toNat a
      match regAt a with
      | none =>
        -- the alias holds the other plane's SYS page, with latches of its own and no effect of a read
        match (if a / 0x1000 = 0x1F0 then rowIn regsSYS (a % 0x1000) else none) with
        | none => { st := s, word := w }
        | some r =>
          match (s.plane i).latched path a with
          | some v => { st := s.upd i fun p => p.setLatch path a none, word := v }
          | none => { st := if r.row.wide && !r.high then s.upd i (fun p => p.setLatch path (a + 4) (some (s.view i path tag.toNat (a + 4)))) else s, word := w }
      | some r =>
        match (s.plane i).latched path a with
        | some v => { st := (s.upd i fun p => p.setLatch path a none).readEffects i path tag a, word := v }
        | none =>
          let t := s.readEffects i path tag a
          let t := (latches a r).foldl (fun t b => t.upd i fun p => p.setLatch path b (some (s.view i path tag.toNat b))) t
          { st := if r.row.rc = 0 then t else t.rcClear i path a r.row.rc, word := w }

/-! ### Writes: flags, fields and operations of local pages -/

/-- Write 1 to clear (R19); the flags of other tags stay (R123, R397), and CAN receive objects are released (R293). -/
def Plane.clearBits (p : Plane) (path : Nat) (tag : Tag) (a : Nat) (bits : Word) (now : Nat) : Plane :=
  let page := a / 0x1000
  let on : List Nat := below 32 fun n => bit bits n
  if Reg.CMD_DONE 0 ≤ a ∧ a ≤ Reg.CMD_DONE 7 then
    let slots := on.map fun n => 8 * (a - Reg.CMD_DONE 0) + n
    let p := if slots.any fun n => !(p.slot n).seen tag.toNat then p.violate path tag true 4 a now else p
    (slots.filter fun n => (p.slot n).seen tag.toNat).foldl Plane.doneClear p
  else if 0x38 ≤ page ∧ page ≤ 0x3F ∧ 0x70 ≤ a % 0x1000 then
    let ch := page - 0x38
    let objs := (on.map fun n => 8 * (a % 0x1000 - 0x70) + n).filter fun k => ((p.rx ch).obj k).full && !objTx p.cfg ch k
    objs.foldl (fun p k => p.setRx ch ((p.rx ch).release k)) p
  else
    let bits := if a = Reg.RTC_EVT then bits &&& p.rtcEvtMask tag.toNat else bits
    p.wr a (p.rd a &&& ~~~bits)

/-- Whether a page is sealed (R45). -/
def Plane.sealed (p : Plane) (page : Nat) : Bool := bit (p.rd (page * 0x1000 + 0x14)) 31

/-- What is left of a write of `mask` to fields once the seal (R45) and the fields' own rules are met. -/
def Plane.fieldMask (p : Plane) (a rws : Nat) (mask data : Word) : Judged :=
  let cut := p.sealed (a / 0x1000) && (mask &&& w32 rws) != 0
  let m := if cut then mask &&& ~~~w32 rws else mask
  let j := if m = 0 then { mask := 0, data := data } else p.judge a m data
  { j with err := j.err || cut }

/-- A write to the RW and RWS fields of a local page: it acts at once, and what the store keeps is committed (R21). -/
def Plane.storeFields (p : Plane) (a : Nat) (row : RegDef) (mask data : Word) : Plane :=
  let m := mask &&& w32 (row.rw ||| row.rws)
  if m = 0 then p
  else
    let j := p.fieldMask a row.rws m data
    let p := if j.err then p.refuseField a else p
    if j.mask = 0 then p else (p.wr a (merge j.mask (p.rd a) j.data)).commitRegs [a]

/-- A write of REM_ALLOW (R316): sessions of tags no longer allowed are closed. -/
def Plane.closeForbidden (p : Plane) : Plane := p.closeSessions fun x => x.opened && !p.remAllows x.tag.toNat

/-- RED.DRILL_CTRL (R260): ARM and CANCEL. -/
def State.drillCtrl (s : State) (i : PlaneId) (data : Word) : State :=
  let p := s.plane i
  let refused (s : State) : State := s.upd i fun p => (p.err Reg.RED_PAGE).wrF Reg.RED_DRILL_CTRL 10 8 4
  if fld data 1 0 = 0 then s
  else if !p.isActive then refused s
  else
    let s := if bit data 1 then
        match p.red.drill with
        | some d => if s.now + 2048 < d then
            s.updBoth fun p => (p.wrF Reg.RED_DRILL_CTRL 10 8 5).updRed fun r => { r with drill := none } else s
        | none => s
      else s
    if bit data 0 then
      let d := p.rd64 Reg.RED_DRILL_AT
      if d % 2048 = 0 ∧ s.now + 8 * 2048 ≤ d then
        s.updBoth fun p => (p.wrF Reg.RED_DRILL_CTRL 10 8 1).updRed fun r => { r with drill := some d }
      else refused s
    else s

/-- FAULT.RESTART (R439): a key or operation that does not exist leaves the whole write without effect. (DEDUCED, unsafe: assumption 52.) -/
def State.restartCtrl (s : State) (i : PlaneId) (tag : Tag) (row : RegDef) (mask data : Word) : State :=
  let d := data &&& mask
  if (mask &&& 0xFF07#32) = 0 then s.upd i fun p => p.storeFields Reg.FAULT_RESTART row mask data
  else if fld d 15 8 ≠ 0xA5 ∨ fld d 2 0 = 0 ∨ 3 < fld d 2 0 then s.upd i fun p => p.err Reg.FAULT_PAGE
  else
    let s := s.upd i fun p => p.storeFields Reg.FAULT_RESTART row mask data
    if fld d 2 0 = 1 then s.restartPlane i tag else s.restartModule i tag (fld d 2 0 == 3)

/-- A periodic unit's EN from 0 to 1 starts its count at the next boundary of 1/256 s (R395). -/
def Plane.perEnable (p : Plane) (k : Nat) (was : Word) (now : Nat) : Plane :=
  if !bit was 0 && p.rdF (Reg.RTC_PER_CFG k) 0 0 == 1 then
    let tt := p.tt now
    let since := (tt - p.rtc.subTt) * 256 / 1000000000
    let start := p.rtc.subTt + (since + 1) * 1000000000 / 256
    p.updRtc fun r => { r with perTt := r.perTt.set k start, perLen := r.perLen.set k (p.rdF (Reg.RTC_PER_PERIOD k) 24 0) }
  else p

/-- A write to a register of a local page that is kept once for the plane. -/
def State.writeLocal (s : State) (i : PlaneId) (path : Nat) (tag : Tag) (be : BitVec 4) (a : Nat) (row : RegDef) (mask data : Word) : State :=
  let d := data &&& mask
  let off := a % 0x1000
  let t := s.upd i fun p => p.storeFields a row mask data
  let wo := (mask &&& w32 row.wo) != 0
  if a = Reg.SYS_CFG_CTRL then (s.upd i fun p => p.cfgCtrl mask data s.now).sendGroups (s.plane i).grps i
  else if a = Reg.ACCESS_REM_ALLOW_LO ∨ a = Reg.ACCESS_REM_ALLOW_HI then t.upd i Plane.closeForbidden
  else if a = Reg.LFAB_INJECT then
    (if bit d 1 then s.upd i fun p => p.updWeir fun w => { w with inject := some (fld d 0 0) } else s)
  else if a = Reg.RED_DRILL_CTRL then s.drillCtrl i d
  else if a = Reg.KEY_ZERO then s.upd i fun p => p.keyZero d
  else if a = Reg.BOOT_FW_CTRL then s.upd i fun p => p.fwCtrl (tag == 0) d
  else if a = Reg.BOOT_IMG_CTRL then s.upd i fun p => p.imgCtrl path d s.now
  else if a = Reg.BOOT_IMG_DATA then s.upd i fun p => p.imgWord path d s.now
  else if a = Reg.TARN_CTRL then (if bit d 8 then s.upd i fun p => p.updTarn fun x => { x with nextAll := true } else s)
  else if a / 0x1000 = 0x44 ∧ 0x800 ≤ off then s.upd i fun p => p.winWrite path be ((off - 0x800) / 4) data
  else if a = Reg.EVR_CTRL then (if bit d 8 then s.upd i Plane.flush else s)
  else if a = Reg.RTC_CTRL then (if bit d 8 then s.upd i fun p => p.rtcWriteGo tag else s)
  else if a = Reg.RTC_SHIFT then (if wo then s.upd i fun p => p.rtcShift tag (fld d 15 0) else s)
  else if a / 0x1000 = 0x48 ∧ 0x80 ≤ off ∧ off < 0x240 ∧ off % 0x20 = 4 then s.upd i fun p => p.almCtrl ((off - 0x80) / 0x20) d
  else if a = Reg.RTC_PER_CFG 0 ∨ a = Reg.RTC_PER_CFG 1 then
    t.upd i fun p => p.perEnable (if a = Reg.RTC_PER_CFG 0 then 0 else 1) ((s.plane i).rd a) s.now
  else if a = Reg.MEM_B_CFG then s.upd i fun p => p.bCfgWrite path mask data
  else if a = Reg.BKG_RUN then s.upd i fun p => p.runNow (fld d 5 0)
  else if a = Reg.FAULT_RELAY then (if bit d 8 then t.relayTest i else t)
  else if a = Reg.FAULT_RESTART then s.restartCtrl i tag row mask data
  else t

/-! ### Writes: registers kept per path -/

/-- A write to SUBMIT_k (R96). -/
def Plane.submitWrite (p : Plane) (path : Nat) (tag : Tag) (a : Nat) (mask data : Word) : Plane :=
  if p.prdF path Reg.CMD_RESULT 7 0 = 1 then p.err Reg.CMD_PAGE
  else
    let p := p.pwr path a (merge mask (p.prd path a) data)
    if a = Reg.CMD_SUBMIT 7 then p.submit path tag (p.pbytes path (Reg.CMD_SUBMIT 0) 32) else p

/-- A write of L_SEL or S_SEL: a change with the buffer of window `win` open discards it (R235). -/
def Plane.selectWrite (p : Plane) (path win a : Nat) (new : Word) : Plane :=
  let open_ := (p.path path).bufs.any fun e => e.1 == win
  let p := if open_ && new != p.prd path a then (p.dropBuf path win).err 0x29 else p
  p.pwr path a new

/-- A write to a register kept per path. `mask` covers its RW and WO bits that the byte enables select. -/
def State.writePath (s : State) (i : PlaneId) (path : Nat) (tag : Tag) (a : Nat) (row : RegDef) (mask data : Word) : State :=
  let p := s.plane i
  let d := data &&& mask
  let new := merge mask (p.prd path a &&& w32 row.rw) data
  if Reg.CMD_SUBMIT 0 ≤ a ∧ a ≤ Reg.CMD_SUBMIT 7 then s.upd i fun p => p.submitWrite path tag a mask data
  else if a = Reg.CMD_ABORT then s.abortCmd i path tag (fld d 7 0)
  else if a = Reg.LOOP_L_SEL then s.upd i fun p => p.selectWrite path 3 a new
  else if a = Reg.LOOP_S_SEL then s.upd i fun p => p.selectWrite path 5 a new
  else if a = Reg.KEY_K_OP then s.upd i fun p => p.keyOp path tag (fld d 3 0) s.now
  else if a = Reg.CRYPTO_C_OP then s.upd i fun p => p.cryptoOp path tag d s.now
  else if a = Reg.TARN_PW_CTRL then s.upd i fun p => p.pwCtrl path tag new s.now
  else if a = Reg.TARN_H_CTRL then s.upd i fun p => p.hostCtrl path d
  else if a = Reg.EVR_RD_CTRL then s.upd i fun p => p.rdCtrl path tag new
  else if a = Reg.EVR_APP_CTRL then s.upd i fun p => p.appCtrl path tag new
  else s.upd i fun p => p.pwr path a (merge mask (p.prd path a) data)

/-! ### Writes: configuration, seals and whole words -/

/-- Hold a low word on a path (R49). -/
def Plane.holdLow (p : Plane) (path a : Nat) (mask data : Word) : Plane :=
  let h := p.heldLow path a
  p.updPath path fun x => { x with held := Tab.put (fun _ => (0, 0)) x.held a (h.1 ||| mask, merge mask h.2 data) }

/-- Use up a held low word. -/
def Plane.dropLow (p : Plane) (path a : Nat) : Plane := p.updPath path fun x => { x with held := Tab.del x.held a }

/-- The address at which a configuration write is queued: L_CTRL acts on the loop that the path selects (R238). -/
def Plane.cfgTarget (p : Plane) (path a : Nat) : Nat := if a = Reg.LOOP_L_CTRL then loopCtlAddr (p.prdF path Reg.LOOP_L_SEL 8 0) else a

/-- A configuration write to a register (R55 to R59): `mask` covers its RW, RWS and WO bits that the byte enables select. The high word
of a wide register takes the held low word with it. -/
def Plane.cfgWrite (p : Plane) (path : Nat) (group : Bool) (a : Nat) (r : RegAt) (mask data : Word) (now : Nat) : Plane :=
  if r.row.wide && !r.high then p.holdLow path a mask data
  else if !p.isActive then p.standbyWrite (a / 0x1000)
  else
    let j := p.fieldMask a r.row.rws mask data
    let p := if j.err then p.refuseField a else p
    if j.mask = 0 then p
    else
      let h := if r.high then p.heldLow path (a - 4) else (0, 0)
      let low := if h.1 = 0 then [] else [(a - 4, h.1, h.2)]
      ((p.queueCfg path group (low ++ [(p.cfgTarget path a, j.mask, j.data)]) now).1).dropLow path (a - 4)

/-- A write of SEAL (R45, R46). (DEDUCED, unsafe: assumption 24.) -/
def Plane.sealWrite (p : Plane) (path : Nat) (group : Bool) (page : Nat) (mask data : Word) (now : Nat) : Plane :=
  let own := page * 0x1000 + 0x14
  if mirroredPage page && !p.isActive then p.standbyWrite page
  else if mask ≠ 0xFFFFFFFF#32 ∨ data ≠ idWord page then p.err page
  else if mirroredPage page then
    let (p, ok) := p.queueCfg path group [(own, 0x80000000#32, 0x80000000#32)] now
    if ok then p.wrF own 31 31 1 else p
  else p.wrF own 31 31 1

/-- A write to a register that a chapter lists. -/
def State.writeReg (s : State) (i : PlaneId) (path : Nat) (tag : Tag) (group : Bool) (be : BitVec 4) (a : Nat) (r : RegAt) (data : Word) :
    State :=
  let mask := beMask be
  let row := r.row
  let page := a / 0x1000
  let ones := mask &&& data &&& w32 row.w1c
  let s := if ones = 0 then s else s.upd i fun p => p.clearBits path tag a ones s.now
  let m := mask &&& w32 (row.rw ||| row.rws ||| row.wo)
  if m = 0 then s
  else if row.perPath then
    (if row.wide && !r.high then s.upd i fun p => p.holdLow path a m data
     else
       let h := if r.high then (s.plane i).heldLow path (a - 4) else (0, 0)
       let s := if h.1 = 0 then s
         else s.upd i fun p => (p.pwr path (a - 4) (merge h.1 (p.prd path (a - 4)) h.2)).dropLow path (a - 4)
       s.writePath i path tag a row m data)
  else if mirroredPage page ∨ a = Reg.RED_AUTH then (s.upd i fun p => p.cfgWrite path group a r m data s.now).sendGroups (s.plane i).grps i
  else if row.wide && !r.high then s.upd i fun p => p.holdLow path a m data
  else if r.high then
    let h := (s.plane i).heldLow path (a - 4)
    s.upd i fun p =>
      let p := if h.1 = 0 then p else (p.storeFields (a - 4) row h.1 h.2).dropLow path (a - 4)
      p.storeFields a row m data
  else s.writeLocal i path tag be a row m data

/-- A write of one word (R39, R40, R48, R302, R422). -/
def State.writeWord (s : State) (i : PlaneId) (path : Nat) (tag : Tag) (group : Bool) (be : BitVec 4) (a : Nat) (data : Word) : BusAns :=
  if !(s.plane i).answers path tag a then { st := s }
  else
    let mask := beMask be
    let page := a / 0x1000
    let rule := s.forbids i path tag true mask data a
    if rule ≠ 0 then { st := s.upd i fun p => p.violate path tag true rule a s.now, ok := false }
    else if be = 0 then { st := s }
    else if page = 0x1F0 then { st := s.upd i fun p => p.err 0 }
    else if !mapped page then { st := s.upd i Plane.unmapped }
    else if 0x140 ≤ page ∧ isWindow page then
      { st := if (a - 0x140000) % 0x3000 < 10240 then s.upd i fun p => p.err (0x38 + (a - 0x140000) / 0x3000) else s }
    else
      let old := (s.plane i).grps
      match (s.plane i).entryPlace path a with
      | some e => { st := (s.upd i fun p => p.entryWrite path tag group e a mask data s.now).sendGroups old i }
      | none =>
        match regAt a with
        | none => { st := s }
        | some r =>
          if a % 0x1000 = 0x1C then { st := (s.upd i fun p => p.sealWrite path group page mask data s.now).sendGroups old i }
          else { st := s.writeReg i path tag group be a r data }

/-! ### The Host Register Port (R61 to R64) -/

/-- A write over a plane's HRP. -/
def State.hrpWrite (s : State) (i : PlaneId) (tag : Tag) (be : BitVec 4) (a : Nat) (data : Word) : State := (s.writeWord i 0 tag false be a data).st

/-- A read over a plane's HRP: the word driven on D[31:0] is kept as the path's answer. -/
def State.hrpRead (s : State) (i : PlaneId) (tag : Tag) (a : Nat) : State :=
  let r := s.readWord i 0 tag a
  r.st.upd i fun p => p.updPath 0 fun x => { x with answer := [r.word] }

/-- The byte address of a word address (R16). -/
abbrev byteAddr (w : BitVec 20) : Nat := 4 * w.toNat

end Sys2Proof.Machine
end

