-- ==== Sys2Proof/Machine/Moarno.lean ====
section
/-!
DEFINITION. Remote access (R66, R67, R341, R342): the requests of a Moarno session, performed word by word as accesses with the
session's tag, and the opening and closing of sessions.
-/
namespace Sys2Proof.Machine

/-- A session has a request outstanding (R67). -/
def Session.busy (x : Session) : Bool := x.wait.isSome || x.submitting.isSome

/-- STATUS of a request of `words` words from `addr`; `known` says that its OP is one of the four, and `need` is the number of words its OP asks for, where it asks for one. (DEDUCED, unsafe: assumption 20.) -/
def requestStatus (x : Session) (known : Bool) (need : Option Nat) (words addr : Nat) : Nat :=
  if x.busy then 4
  else if !known || need.any fun n => n != words then 1
  else if addr % 4 ≠ 0 then 2
  else if words = 0 ∨ 256 < words ∨ (need = none ∧ 0x400000 < addr + 4 * words) then 3
  else 0

/-- Answer a request of a session. -/
def State.moarnoAnswer (s : State) (i : PlaneId) (k : Nat) (a : MoarnoAnswer) : State :=
  s.upd i fun p => p.setSession k { p.session k with answer := some a }

/-- Perform a request of a session: nothing where the session is not open; the status alone where it is not OK. -/
def State.request (s : State) (i : PlaneId) (k op : Nat) (need : Option Nat) (words addr seq : Nat) (f : State → State) (known : Bool := true) : State :=
  let x := (s.plane i).session k
  if !x.opened then s
  else
    let st := requestStatus x known need words addr
    if st ≠ 0 then s.moarnoAnswer i k { op := op, status := st, words := words, addr := addr, seq := seq, viol := 0, data := [] } else f s

/-- The words of a READ, in rising address order: the words returned and the number refused. -/
def State.readWords (s : State) (i : PlaneId) (path : Nat) (tag : Tag) : Nat → Nat → State × List Word × Nat
  | _, 0 => (s, [], 0)
  | a, n + 1 =>
    let r := s.readWord i path tag a
    let t := State.readWords r.st i path tag (a + 4) n
    (t.1, r.word :: t.2.1, t.2.2 + (!r.ok).toNat)

/-- The words of a WRITE, in rising address order, and the number refused. -/
def State.writeWords (s : State) (i : PlaneId) (path : Nat) (tag : Tag) (group : Bool) : Nat → List Word → State × Nat
  | _, [] => (s, 0)
  | a, w :: ws =>
    let r := s.writeWord i path tag group 0xF#4 a w
    let t := State.writeWords r.st i path tag group (a + 4) ws
    (t.1, t.2 + (!r.ok).toNat)

/-- MOARNO_READ (R66, R67): a request of OP 1; a request header with an unknown OP, which no command of its own carries, comes here too and is answered
BAD_OP. -/
def execMoarnoRead (p : PlaneId) (session : Fin 8) (head : RequestHead) (addr seq : Nat) (s : State) : Host.Outcome State Fault Refusal :=
  let k := session.val
  let words := head.words
  .next (s.request p k head.op.toNat none words addr seq (fun s =>
    let r := s.readWords p (k + 1) ((s.plane p).session k).tag addr words
    r.1.moarnoAnswer p k { op := 1, status := 0, words := words, addr := addr, seq := seq, viol := r.2.2, data := r.2.1 }) (head.op == 1))

/-- MOARNO_WRITE (R57, R66, R67): with GROUP the request forms one configuration group, released by its last word. -/
def execMoarnoWrite (p : PlaneId) (session : Fin 8) (group : Bool) (words addr seq : Nat) (data : List Word) (s : State) :
    Host.Outcome State Fault Refusal :=
  let k := session.val
  .next (s.request p k 2 none words addr seq fun s =>
    let ws := (List.range words).map fun n => data.getD n 0
    let r := s.writeWords p (k + 1) ((s.plane p).session k).tag group addr ws
    let old := (r.1.plane p).grps
    let t := (r.1.upd p fun x => x.releaseHeld (k + 1) s.now).sendGroups old p
    t.moarnoAnswer p k { op := 2, status := 0, words := words, addr := addr, seq := seq, viol := r.2, data := [] })

/-- Submit a session's record (R96): it waits for Weir's decision, and a refusal on a standby plane answers at once. (DEDUCED, unsafe: assumption 25.) -/
def State.moarnoSubmit (s : State) (i : PlaneId) (k addr seq : Nat) (tag : Tag) (record : List Byte) : State :=
  s.upd i fun p =>
    if p.prdF (k + 1) Reg.CMD_RESULT 7 0 = 1 then
      let p := p.err Reg.CMD_PAGE
      p.setSession k { p.session k with answer := some { op := 3, status := 0, words := 8, addr := addr, seq := seq, viol := 0,
                                                         data := [p.prd (k + 1) Reg.CMD_RESULT] } }
    else (p.setSession k { p.session k with submitting := some (seq, addr) }).submit (k + 1) tag record

/-- MOARNO_CMD_SUBMIT (R66, R96): the words pass the Shore check as writes of SUBMIT_0 to SUBMIT_7. -/
def execMoarnoCmdSubmit (p : PlaneId) (session : Fin 8) (words addr seq : Nat) (data : List Word) (s : State) :
    Host.Outcome State Fault Refusal :=
  let k := session.val
  .next (s.request p k 3 (some 8) words addr seq fun s =>
    let tag := ((s.plane p).session k).tag
    let ws := (List.range 8).map fun n => data.getD n 0
    let bad := (List.range 8).filter fun n => s.forbids p (k + 1) tag true 0xFFFFFFFF#32 (ws.getD n 0) (Reg.CMD_SUBMIT n) != 0
    if bad = [] then s.moarnoSubmit p k addr seq tag (wordBytes ws)
    else
      let t := bad.foldl (fun t n => t.upd p fun x => x.violate (k + 1) tag true
        (s.forbids p (k + 1) tag true 0xFFFFFFFF#32 (ws.getD n 0) (Reg.CMD_SUBMIT n)) (Reg.CMD_SUBMIT n) s.now) s
      t.moarnoAnswer p k { op := 3, status := 0, words := 8, addr := addr, seq := seq, viol := bad.length, data := [0] })

/-- MOARNO_EVT_WAIT (R66): the masks and the time-out, at most 60,000 ms, are kept until a masked bit is set. -/
def execMoarnoEvtWait (p : PlaneId) (session : Fin 8) (words addr seq : Nat) (data : List Word) (s : State) :
    Host.Outcome State Fault Refusal :=
  let k := session.val
  .next (s.request p k 4 (some 4) words addr seq fun s => s.upd p fun x =>
    let w (n : Nat) : Word := data.getD n 0
    x.setSession k { x.session k with wait := some { masks := [w 0, w 1, w 2], until_ := x.tt s.now + min 60000 (w 3).toNat * 1000000,
                                                     seq := seq, addr := addr } })

/-- The three EVT_SUM words as a session sees them. -/
def Plane.sums (p : Plane) (tag : Nat) : List Word := (List.range 3).map fun k => p.evtSum tag k

/-- A waiting EVT_WAIT has its answer: a masked bit is set, or its time-out has passed (R67). -/
def Plane.waitOver (p : Plane) (k now : Nat) : Bool :=
  match (p.session k).wait with
  | none => false
  | some w => (List.range 3).any (fun n => (p.evtSum (p.session k).tag.toNat n &&& w.masks.getD n 0) != 0) || decide (w.until_ ≤ p.tt now)

/-- EVT_WAIT_ANSWER (R67). -/
def execEvtWaitAnswer (p : PlaneId) (session : Fin 8) (s : State) : Host.Outcome State Fault Refusal :=
  let k := session.val
  .next (s.upd p fun x =>
    match (x.session k).wait with
    | some w =>
      if x.waitOver k s.now then
        x.setSession k { x.session k with
          wait := none,
          answer := some { op := 4, status := 0, words := 4, addr := w.addr, seq := w.seq, viol := 0, data := x.sums (x.session k).tag.toNat } }
      else x
    | none => x)

/-- Whether a handshake with a chain under a trust anchor authenticates a client (R316, R341, R342). (DEDUCED, unsafe: assumption 25.) -/
def Plane.authenticates (p : Plane) (tag : Tag) (anchor : Nat) : Bool :=
  let x := p.keySlot anchor
  let ident := p.keySlot (p.rdF Reg.CRYPTO_TLS 7 0)
  x.st == .active && x.type == 2 && x.use.testBit 8 && x.tag == tag.toNat && (p.activeKey anchor).isSome &&
    ident.type == 1 && ident.use.testBit 8 && (p.activeKey (p.rdF Reg.CRYPTO_TLS 7 0)).isSome &&
    (!p.rtc.osf || bit (p.rd Reg.CRYPTO_TLS) 8) && p.remAllows tag.toNat && (tag == 0 || tag == 63 || tagActive p.cfg tag.toNat)

/-- MOARNO_SESSION_OPEN (R316, R341, R342): `valid` says that the chain verifies. A session already open is not opened again. -/
def execMoarnoSessionOpen (p : PlaneId) (session : Fin 8) (tag : Tag) (anchor : Fin 256) (valid : Bool) (s : State) :
    Host.Outcome State Fault Refusal :=
  let k := session.val
  .next (s.upd p fun x =>
    if !x.running || (x.session k).opened then x
    else if valid && x.authenticates tag anchor.val then
      let x := x.setSession k { opened := true, tag := tag, anchor := anchor.val, ident := x.rdF Reg.CRYPTO_TLS 7 0 }
      let x := x.updPath (k + 1) fun _ => {}
      (x.wr (Reg.ACCESS_SESS k) (w32 (tag.toNat + 256))).evt Reg.ACCESS_EVT 9
    else (x.bump Reg.CRYPTO_HS_FAIL_CNT 15 0).evt Reg.CRYPTO_EVT 9)

/-- MOARNO_SESSION_CLOSE (R66, R316, R365). -/
def execMoarnoSessionClose (p : PlaneId) (session : Fin 8) (s : State) : Host.Outcome State Fault Refusal :=
  .next (s.upd p fun x => x.closeSession session.val)

end Sys2Proof.Machine
end

