-- ==== Sys2Proof/Machine/Requests.lean ====
section
/-!
DEFINITION. The commands that are accesses over a plane's Host Register Port: each is one read or one write of the register that its
chapter names, with the byte enables of the field it acts on.
-/
namespace Sys2Proof.Machine

/-! ### Register pages (chapter 2) -/

/-- REGISTER_WRITE (R55): a write of any word. -/
def execRegisterWrite (p : PlaneId) (tag : Tag) (be : BitVec 4) (addr : BitVec 20) (data : Word) (s : State) :
    Host.Outcome State Fault Refusal := .next (s.hrpWrite p tag be (byteAddr addr) data)

/-- RC_READ (R50): a read of any word; one with read-to-clear bits clears them. -/
def execRcRead (p : PlaneId) (tag : Tag) (addr : BitVec 20) (s : State) : Host.Outcome State Fault Refusal :=
  .next (s.hrpRead p tag (byteAddr addr))

/-- WIDE_LOW_READ (R49): a read that latches the high half. -/
def execWideLowRead (p : PlaneId) (tag : Tag) (addr : BitVec 20) (s : State) : Host.Outcome State Fault Refusal :=
  .next (s.hrpRead p tag (byteAddr addr))

/-- WIDE_HIGH_WRITE (R49): a write that takes the held low word with it. -/
def execWideHighWrite (p : PlaneId) (tag : Tag) (be : BitVec 4) (addr : BitVec 20) (data : Word) (s : State) :
    Host.Outcome State Fault Refusal := .next (s.hrpWrite p tag be (byteAddr addr) data)

/-- SEAL (R45). -/
def execSeal (p : PlaneId) (tag : Tag) (be : BitVec 4) (page : BitVec 10) (data : Word) (s : State) : Host.Outcome State Fault Refusal :=
  .next (s.hrpWrite p tag be (page.toNat * 0x1000 + 0x1C) data)

/-- SOFT_RST (R44): CTRL is written with EN as it stands and SOFT_RST 1. -/
def execSoftRst (p : PlaneId) (tag : Tag) (page : BitVec 10) (s : State) : Host.Outcome State Fault Refusal :=
  let a := page.toNat * 0x1000 + 4
  .next (s.hrpWrite p tag 0x1#4 a (((s.plane p).rd a &&& 1) ||| 2))

/-- WINDOW_ENTRY_WRITE (R53, R54). -/
def execWindowEntryWrite (p : PlaneId) (tag : Tag) (be : BitVec 4) (addr : BitVec 20) (data : Word) (s : State) :
    Host.Outcome State Fault Refusal := .next (s.hrpWrite p tag be (byteAddr addr) data)

/-- HOLD (R58). -/
def execHold (p : PlaneId) (tag : Tag) (s : State) : Host.Outcome State Fault Refusal := .next (s.hrpWrite p tag 0x1#4 Reg.SYS_CFG_CTRL 1)

/-- HOLD_CLEAR (R58). -/
def execHoldClear (p : PlaneId) (tag : Tag) (s : State) : Host.Outcome State Fault Refusal :=
  .next (s.hrpWrite p tag 0x1#4 Reg.SYS_CFG_CTRL 0)

/-- DISCARD (R58, R59). -/
def execDiscard (p : PlaneId) (tag : Tag) (s : State) : Host.Outcome State Fault Refusal :=
  .next (s.hrpWrite p tag 0x1#4 Reg.SYS_CFG_CTRL 2)

/-! ### Time base, commands and the Launch Fabric (chapters 3 and 4) -/

/-- REALIGN (R88): a write of PTP.CYC_CTRL. -/
def execRealign (p : PlaneId) (tag : Tag) (s : State) : Host.Outcome State Fault Refusal :=
  .next (s.hrpWrite p tag 0x1#4 Reg.PTP_CYC_CTRL 1)

/-- CMD_SUBMIT (R96): the write of SUBMIT_7. -/
def execCmdSubmit (p : PlaneId) (tag : Tag) (be : BitVec 4) (data : Word) (s : State) : Host.Outcome State Fault Refusal :=
  .next (s.hrpWrite p tag be (Reg.CMD_SUBMIT 7) data)

/-- INJECT (R124). -/
def execInject (p : PlaneId) (tag : Tag) (link : Fin 2) (s : State) : Host.Outcome State Fault Refusal :=
  .next (s.hrpWrite p tag 0x1#4 Reg.LFAB_INJECT (w32 (link.val + 2)))

/-- DONE_CLEAR (R111, R123). -/
def execDoneClear (p : PlaneId) (tag : Tag) (k : Fin 8) (mask : Word) (s : State) : Host.Outcome State Fault Refusal :=
  .next (s.hrpWrite p tag 0xF#4 (Reg.CMD_DONE k.val) mask)

/-- ABORT (R114). -/
def execAbort (p : PlaneId) (tag : Tag) (slot : Fin 256) (s : State) : Host.Outcome State Fault Refusal :=
  .next (s.hrpWrite p tag 0x1#4 Reg.CMD_ABORT (w32 slot.val))

/-! ### The two planes (chapter 10) -/

/-- DRILL_ARM (R260). -/
def execDrillArm (p : PlaneId) (tag : Tag) (s : State) : Host.Outcome State Fault Refusal :=
  .next (s.hrpWrite p tag 0x1#4 Reg.RED_DRILL_CTRL 1)

/-- DRILL_CANCEL (R260). -/
def execDrillCancel (p : PlaneId) (tag : Tag) (s : State) : Host.Outcome State Fault Refusal :=
  .next (s.hrpWrite p tag 0x1#4 Reg.RED_DRILL_CTRL 2)

/-! ### The engines (chapters 8 and 9) -/

/-- GO (R218): CHG_CTRL with COUNT and GO. -/
def execGo (p : PlaneId) (tag : Tag) (count : Fin 128) (s : State) : Host.Outcome State Fault Refusal :=
  .next (s.hrpWrite p tag 0x3#4 Reg.SCAN_CHG_CTRL (w32 (count.val + 256)))

/-- CHG_ITEM_WRITE (R218, R220): the high word of CHG_k, with the held low word. -/
def execChgItemWrite (p : PlaneId) (tag : Tag) (be : BitVec 4) (k : Fin 64) (data : Word) (s : State) : Host.Outcome State Fault Refusal :=
  .next (s.hrpWrite p tag be (Reg.SCAN_CHG k.val + 4) data)

/-- LOOP_RECORD_WRITE (R235, R236): the write of LCFG_5. -/
def execLoopRecordWrite (p : PlaneId) (tag : Tag) (be : BitVec 4) (data : Word) (s : State) : Host.Outcome State Fault Refusal :=
  .next (s.hrpWrite p tag be (Reg.LOOP_LCFG 5) data)

/-- LOOP_SECTION_WRITE (R235, R237): the write of SHIFTS. -/
def execLoopSectionWrite (p : PlaneId) (tag : Tag) (be : BitVec 4) (data : Word) (s : State) : Host.Outcome State Fault Refusal :=
  .next (s.hrpWrite p tag be Reg.LOOP_SHIFTS data)

/-- SWAP (R231): L_CTRL.SWAP of the selected loop, with SWAP_RESET where asked. -/
def execSwap (p : PlaneId) (tag : Tag) (reset : Bool) (s : State) : Host.Outcome State Fault Refusal :=
  .next (s.hrpWrite p tag 0x1#4 Reg.LOOP_L_CTRL (w32 (1 + 2 * b1 reset)))

/-- CLEAR (R233). -/
def execClear (p : PlaneId) (tag : Tag) (s : State) : Host.Outcome State Fault Refusal := .next (s.hrpWrite p tag 0x1#4 Reg.LOOP_L_CTRL 4)

/-- REARM (R233). -/
def execRearm (p : PlaneId) (tag : Tag) (s : State) : Host.Outcome State Fault Refusal := .next (s.hrpWrite p tag 0x1#4 Reg.LOOP_L_CTRL 8)

/-! ### Frame network and CAN (chapters 11 and 12) -/

/-- WAKE_FILTER_WRITE (R280): the write of a filter's CFG. -/
def execWakeFilterWrite (p : PlaneId) (tag : Tag) (k : Fin 32) (data : Word) (s : State) : Host.Outcome State Fault Refusal :=
  .next (s.hrpWrite p tag 0xF#4 (Reg.WAKE_CFG k.val) data)

/-- RX_RELEASE (R293). -/
def execRxRelease (p : PlaneId) (tag : Tag) (ch : Fin 8) (k : Fin 4) (mask : Word) (s : State) : Host.Outcome State Fault Refusal :=
  .next (s.hrpWrite p tag 0xF#4 (Reg.CAN_RX_FULL ch.val k.val) mask)

/-- RECOVER (R295): CTRL.RECOVER alone. -/
def execRecover (p : PlaneId) (tag : Tag) (ch : Fin 8) (s : State) : Host.Outcome State Fault Refusal :=
  .next (s.hrpWrite p tag 0x2#4 (Reg.CAN_CTRL ch.val) 0x100)

/-! ### Keys and engines (chapter 14) -/

/-- A write of K_OP. -/
def State.keyWrite (s : State) (p : PlaneId) (tag : Tag) (op : Nat) : State := s.hrpWrite p tag 0x1#4 Reg.KEY_K_OP (w32 op)

/-- GENERATE (R332). -/
def execGenerate (p : PlaneId) (tag : Tag) (s : State) : Host.Outcome State Fault Refusal := .next (s.keyWrite p tag 1)
/-- DERIVE (R332). -/
def execDerive (p : PlaneId) (tag : Tag) (s : State) : Host.Outcome State Fault Refusal := .next (s.keyWrite p tag 2)
/-- IMPORT (R333). -/
def execImport_ (p : PlaneId) (tag : Tag) (s : State) : Host.Outcome State Fault Refusal := .next (s.keyWrite p tag 3)
/-- VERIFY of a staged key (R334). -/
def execKeyVerify (p : PlaneId) (tag : Tag) (s : State) : Host.Outcome State Fault Refusal := .next (s.keyWrite p tag 4)
/-- COMMIT (R335). -/
def execCommit (p : PlaneId) (tag : Tag) (s : State) : Host.Outcome State Fault Refusal := .next (s.keyWrite p tag 5)
/-- DISCARD of a staged key (R336). -/
def execKeyDiscard (p : PlaneId) (tag : Tag) (s : State) : Host.Outcome State Fault Refusal := .next (s.keyWrite p tag 6)
/-- INVALIDATE (R338). -/
def execInvalidate (p : PlaneId) (tag : Tag) (s : State) : Host.Outcome State Fault Refusal := .next (s.keyWrite p tag 7)

/-- ZERO with 0x5A31 (R338, R351): every slot from 2 to 255 is invalidated. -/
def execZeroAll (p : PlaneId) (tag : Tag) (s : State) : Host.Outcome State Fault Refusal := .next (s.hrpWrite p tag 0xF#4 Reg.KEY_ZERO 0x5A31)

/-- ZERO with 0x5A32 (R325): re-enrolment. -/
def execReenrol (p : PlaneId) (tag : Tag) (s : State) : Host.Outcome State Fault Refusal := .next (s.hrpWrite p tag 0xF#4 Reg.KEY_ZERO 0x5A32)

/-- A write of C_OP. -/
def State.cryptoWrite (s : State) (p : PlaneId) (tag : Tag) (op slot : Nat) (pre : Bool := false) : State :=
  s.hrpWrite p tag 0x7#4 Reg.CRYPTO_C_OP (w32 (op + 256 * slot + 65536 * b1 pre))

/-- HASH (R340). -/
def execHash (p : PlaneId) (tag : Tag) (s : State) : Host.Outcome State Fault Refusal := .next (s.cryptoWrite p tag 1 0)
/-- HMAC (R340). -/
def execHmac (p : PlaneId) (tag : Tag) (slot : Fin 256) (s : State) : Host.Outcome State Fault Refusal := .next (s.cryptoWrite p tag 2 slot.val)
/-- SIGN (R340). -/
def execSign (p : PlaneId) (tag : Tag) (slot : Fin 256) (prehashed : Bool) (s : State) : Host.Outcome State Fault Refusal :=
  .next (s.cryptoWrite p tag 3 slot.val prehashed)
/-- VERIFY of a signature (R340). -/
def execVerify (p : PlaneId) (tag : Tag) (slot : Fin 256) (prehashed : Bool) (s : State) : Host.Outcome State Fault Refusal :=
  .next (s.cryptoWrite p tag 4 slot.val prehashed)
/-- ENCRYPT (R340). -/
def execEncrypt (p : PlaneId) (tag : Tag) (slot : Fin 256) (s : State) : Host.Outcome State Fault Refusal :=
  .next (s.cryptoWrite p tag 5 slot.val)
/-- DECRYPT (R340). -/
def execDecrypt (p : PlaneId) (tag : Tag) (slot : Fin 256) (s : State) : Host.Outcome State Fault Refusal :=
  .next (s.cryptoWrite p tag 6 slot.val)
/-- RANDOM (R340). -/
def execRandom (p : PlaneId) (tag : Tag) (s : State) : Host.Outcome State Fault Refusal := .next (s.cryptoWrite p tag 7 0)
/-- QUOTE (R348). -/
def execQuote (p : PlaneId) (tag : Tag) (s : State) : Host.Outcome State Fault Refusal := .next (s.cryptoWrite p tag 8 0)
/-- STATEMENT (R349). -/
def execStatement (p : PlaneId) (tag : Tag) (slot : Fin 256) (s : State) : Host.Outcome State Fault Refusal :=
  .next (s.cryptoWrite p tag 9 slot.val)
/-- DEVCERT (R350). -/
def execDevcert (p : PlaneId) (tag : Tag) (s : State) : Host.Outcome State Fault Refusal := .next (s.cryptoWrite p tag 10 0)

/-! ### Images (R344 to R347) -/

/-- A write of IMG_CTRL: one bit, and TARGET. -/
def State.imgWrite (s : State) (p : PlaneId) (tag : Tag) (act : Nat) (program : Bool) : State :=
  s.hrpWrite p tag 0x3#4 Reg.BOOT_IMG_CTRL (w32 (act + 256 * b1 program))

/-- IMG_CTRL.START. -/
def execImgStart (p : PlaneId) (tag : Tag) (program : Bool) (s : State) : Host.Outcome State Fault Refusal := .next (s.imgWrite p tag 1 program)
/-- IMG_CTRL.FINISH. -/
def execFinish (p : PlaneId) (tag : Tag) (program : Bool) (s : State) : Host.Outcome State Fault Refusal := .next (s.imgWrite p tag 2 program)
/-- IMG_CTRL.ABORT. -/
def execImgAbort (p : PlaneId) (tag : Tag) (program : Bool) (s : State) : Host.Outcome State Fault Refusal := .next (s.imgWrite p tag 4 program)
/-- IMG_DATA. -/
def execImgData (p : PlaneId) (tag : Tag) (data : Word) (s : State) : Host.Outcome State Fault Refusal :=
  .next (s.hrpWrite p tag 0xF#4 Reg.BOOT_IMG_DATA data)
/-- FW_CTRL.ACTIVATE (R346). -/
def execActivate (p : PlaneId) (tag : Tag) (s : State) : Host.Outcome State Fault Refusal := .next (s.hrpWrite p tag 0x1#4 Reg.BOOT_FW_CTRL 1)
/-- FW_CTRL.CONFIRM (R346). -/
def execConfirm (p : PlaneId) (tag : Tag) (s : State) : Host.Outcome State Fault Refusal := .next (s.hrpWrite p tag 0x1#4 Reg.BOOT_FW_CTRL 2)
/-- FW_CTRL.ADVANCE (R347). -/
def execAdvance (p : PlaneId) (tag : Tag) (s : State) : Host.Outcome State Fault Refusal := .next (s.hrpWrite p tag 0x1#4 Reg.BOOT_FW_CTRL 4)

/-! ### Tarn and the recorder (chapter 15) -/

/-- TARN.CTRL.STORE (R361). -/
def execTarnStore (p : PlaneId) (tag : Tag) (s : State) : Host.Outcome State Fault Refusal := .next (s.hrpWrite p tag 0x2#4 Reg.TARN_CTRL 0x100)

/-- A write of PW_CTRL for a region's read or write password. -/
def State.pwWrite (s : State) (p : PlaneId) (tag : Tag) (region : Nat) (write : Bool) (op : Nat) : State :=
  s.hrpWrite p tag 0x3#4 Reg.TARN_PW_CTRL (w32 (region + 8 * b1 write + 256 * op))

/-- UNLOCK (R365, R366). -/
def execUnlock (p : PlaneId) (tag : Tag) (region : Fin 8) (write : Bool) (s : State) : Host.Outcome State Fault Refusal :=
  .next (s.pwWrite p tag region.val write 1)
/-- SET (R365). -/
def execSet_ (p : PlaneId) (tag : Tag) (region : Fin 8) (write : Bool) (s : State) : Host.Outcome State Fault Refusal :=
  .next (s.pwWrite p tag region.val write 2)
/-- RELOCK (R365). -/
def execRelock (p : PlaneId) (tag : Tag) (region : Fin 8) (write : Bool) (s : State) : Host.Outcome State Fault Refusal :=
  .next (s.pwWrite p tag region.val write 3)
/-- WIN_WRITE (R367). -/
def execWinWrite (p : PlaneId) (tag : Tag) (be : BitVec 4) (k : Fin 512) (data : Word) (s : State) : Host.Outcome State Fault Refusal :=
  .next (s.hrpWrite p tag be (Reg.TARN_WIN k.val) data)
/-- H_CTRL.COMMIT (R367). -/
def execHCommit (p : PlaneId) (tag : Tag) (s : State) : Host.Outcome State Fault Refusal := .next (s.hrpWrite p tag 0x1#4 Reg.TARN_H_CTRL 1)
/-- H_CTRL.DISCARD (R367). -/
def execHDiscard (p : PlaneId) (tag : Tag) (s : State) : Host.Outcome State Fault Refusal := .next (s.hrpWrite p tag 0x1#4 Reg.TARN_H_CTRL 2)
/-- EVR.CTRL.FLUSH (R373). -/
def execFlush (p : PlaneId) (tag : Tag) (s : State) : Host.Outcome State Fault Refusal := .next (s.hrpWrite p tag 0x2#4 Reg.EVR_CTRL 0x100)

/-- A write of RD_CTRL.OP (R376). -/
def State.rdWrite (s : State) (p : PlaneId) (tag : Tag) (op : Nat) : State := s.hrpWrite p tag 0x1#4 Reg.EVR_RD_CTRL (w32 op)

/-- FIRST. -/
def execFirst (p : PlaneId) (tag : Tag) (s : State) : Host.Outcome State Fault Refusal := .next (s.rdWrite p tag 1)
/-- FIRST_CIRC. -/
def execFirstCirc (p : PlaneId) (tag : Tag) (s : State) : Host.Outcome State Fault Refusal := .next (s.rdWrite p tag 2)
/-- NEXT. -/
def execNext (p : PlaneId) (tag : Tag) (s : State) : Host.Outcome State Fault Refusal := .next (s.rdWrite p tag 3)
/-- SEEK. -/
def execSeek (p : PlaneId) (tag : Tag) (s : State) : Host.Outcome State Fault Refusal := .next (s.rdWrite p tag 4)
/-- APP_NOTE (R377). -/
def execAppNote (p : PlaneId) (tag : Tag) (len : BitVec 9) (sev : BitVec 2) (priv : Bool) (s : State) : Host.Outcome State Fault Refusal :=
  .next (s.hrpWrite p tag 0x7#4 Reg.EVR_APP_CTRL (w32 (len.toNat + 512 * sev.toNat + 2048 * b1 priv + 65536)))

/-! ### The real-time clock (chapter 16) -/

/-- SUBSEC_READ (R384). -/
def execSubsecRead (p : PlaneId) (tag : Tag) (s : State) : Host.Outcome State Fault Refusal := .next (s.hrpRead p tag Reg.RTC_SUBSEC)
/-- WRITE_GO (R385). -/
def execWriteGo (p : PlaneId) (tag : Tag) (s : State) : Host.Outcome State Fault Refusal := .next (s.hrpWrite p tag 0x2#4 Reg.RTC_CTRL 0x100)
/-- SHIFT (R386). -/
def execShift (p : PlaneId) (tag : Tag) (value : BitVec 16) (s : State) : Host.Outcome State Fault Refusal :=
  .next (s.hrpWrite p tag 0x3#4 Reg.RTC_SHIFT (w32 value.toNat))
/-- ALM_u.CTRL.ARM (R393). -/
def execArm (p : PlaneId) (tag : Tag) (u : Fin 14) (comps : BitVec 2) (s : State) : Host.Outcome State Fault Refusal :=
  .next (s.hrpWrite p tag 0x1#4 (Reg.RTC_ALM_CTRL u.val) (w32 comps.toNat))
/-- ALM_u.CTRL.DISARM (R393). -/
def execDisarm (p : PlaneId) (tag : Tag) (u : Fin 14) (comps : BitVec 2) (s : State) : Host.Outcome State Fault Refusal :=
  .next (s.hrpWrite p tag 0x1#4 (Reg.RTC_ALM_CTRL u.val) (w32 (4 * comps.toNat)))

/-! ### Basins, background work, restart and the relay (chapters 17 and 18) -/

/-- B_CFG_WRITE (R404, R406). -/
def execBCfgWrite (p : PlaneId) (tag : Tag) (be : BitVec 4) (data : Word) (s : State) : Host.Outcome State Fault Refusal :=
  .next (s.hrpWrite p tag be Reg.MEM_B_CFG data)
/-- RUN.NOW (R418). -/
def execRunNow (p : PlaneId) (tag : Tag) (acts : BitVec 6) (s : State) : Host.Outcome State Fault Refusal :=
  .next (s.hrpWrite p tag 0x1#4 Reg.BKG_RUN (w32 acts.toNat))

/-- A write of RESTART with its key (R426, R427). -/
def State.restartWrite (s : State) (p : PlaneId) (tag : Tag) (op : Nat) : State := s.hrpWrite p tag 0x3#4 Reg.FAULT_RESTART (w32 (0xA500 + op))

/-- PLANE_RESTART (R426). -/
def execPlaneRestart (p : PlaneId) (tag : Tag) (s : State) : Host.Outcome State Fault Refusal := .next (s.restartWrite p tag 1)
/-- MODULE_RESTART, warm (R427). -/
def execModuleRestartWarm (p : PlaneId) (tag : Tag) (s : State) : Host.Outcome State Fault Refusal := .next (s.restartWrite p tag 2)
/-- MODULE_RESTART, cold (R427). -/
def execModuleRestartCold (p : PlaneId) (tag : Tag) (s : State) : Host.Outcome State Fault Refusal := .next (s.restartWrite p tag 3)
/-- RELAY.TEST (R437). -/
def execRelayTest (p : PlaneId) (tag : Tag) (s : State) : Host.Outcome State Fault Refusal := .next (s.hrpWrite p tag 0x2#4 Reg.FAULT_RELAY 0x100)

end Sys2Proof.Machine
end

