-- ==== Sys2Proof/Machine/Boundary.lean ====
section
/-!
DEFINITION. What a half-cycle boundary does beside applying configuration groups (R9, R29, R103, R116, R126, R129, R141, R230, R390,
R413), and the copy of the SYS page that crosses the sync link (R52).
-/
namespace Sys2Proof.Machine

/-! ### Weir at a boundary -/

/-- GAP_MAX and G1_SLACK for the applied authority mode (R99). -/
def gapOf (auth : Word) : Nat := if bit auth 0 then 1 else fld auth 11 8 + 2

/-- A changed authority mode takes effect once no class G1 command is in flight and no released change waits (R116). -/
def Plane.settleGap (p : Plane) : Plane :=
  let held := (p.weir.slots.any fun e => e.2.alive && e.2.g1) ||
    p.cfgQ.any fun q => q.addr == Reg.RED_AUTH && p.grps.any fun g => g.id == q.grp && g.rel.isSome
  if held then p
  else
    let g := gapOf (p.cfg Reg.RED_AUTH)
    p.updWeir fun w => { w with gapMax := g, g1Slack := max 4 g, modePending := false }

/-- Standing bookings of half-cycles that have passed are history; the load and background counts move on (R102, R413). -/
def Plane.rollModel (p : Plane) (hb : Nat) : Plane :=
  let old (b : Booking) : Bool := decide (halfOf b.tick < hb) && (match b.src with
    | .head _ => true
    | .loop _ => true
    | _ => false)
  let p := p.updWeir fun w => { w with
    books := w.books.filter fun b => !old b, load := w.load.drop 1 ++ [[0, 0]], scanSlots := min 192 (p.cfgF Reg.WEIR_CFG 7 0),
    fired := w.fired.filter (fun e => decide (hb * 2048 < e.2 + 65536)), copies := w.copies.filter fun e => decide (hb * 2048 ≤ e.2.1) }
  p.rollReserve

/-- Whether no condition stops every standing launch: Weir enabled, no module restart, no shed. -/
def Plane.launches (p : Plane) : Bool := bit (p.cfg Reg.WEIR_CTRL) 0 && !p.weir.stopped && !p.weir.supplyShed

/-- The first boundary after the data path has started: the recalled points, heads and loops are taken as newly applied (R129, R141,
R230, R420 step 9). (DEDUCED, unsafe: assumption 33.) -/
def Plane.openTables (p : Plane) (f : FieldSide) (hb : Nat) : Plane :=
  if !p.start.opening then p
  else
    let p := { p with start := { p.start with opening := false } }
    let p := p.pointIdx.foldl (fun p i => p.pointApply i (pmEntry (fun _ => 0) i)) p
    let heads := (p.applied.filter fun e => 0x120000 ≤ e.1 && e.1 < 0x140000 && e.1 % 32 == 0).map fun e => (e.1 - 0x120000) / 32
    let p := heads.foldl (fun p j => p.judgeHead f j hb) p
    (below 512 fun l => (loopRecOf p.cfg l).en && (p.loop l).st == .off).foldl (fun p l => p.loopEnable f l hb 0) p

/-- A PARKED head whose half-cycle is in the model is booked and ARMED (R141). (DEDUCED, unsafe: assumption 33.) -/
def Plane.unpark (p : Plane) (hb : Nat) : Plane :=
  (p.heads.filter fun e => e.2.st == .parked && decide (halfOf (atHead p.cfg e.1).timing ≤ hb + 64)).foldl (fun p e =>
    let src : LaunchSrc := .head e.1
    let h := atHead p.cfg e.1
    let p := if halfOf h.timing = hb + 64 then p
      else p.updWeir fun w => w.book src (standNeed p.cfg src) h.timing
    p.setHead e.1 { p.head e.1 with st := .armed }) p

/-- Standing launches stop where their path is disabled or down, or every path is (R141, R230). -/
def Plane.stopDown (p : Plane) (f : FieldSide) (now : Nat) : Plane :=
  let cause := if p.weir.supplyShed then 1 else 3
  p.stopStanding (fun h => !p.launches || pathDisabled p.cfg h.path || pathStops f h.path) cause now

/-- Heads judged at a boundary without being applied: STOPPED ones whose path is up again, and those that have become complete or
incomplete (R141). -/
def Plane.rejudge (p : Plane) (f : FieldSide) (hb : Nat) : Plane :=
  p.heads.foldl (fun p e =>
    let j := e.1
    let x := p.head j
    let h := atHead p.cfg j
    let whole := headComplete p.cfg j
    if x.st = .none then p
    else if (x.st = .incomplete) = whole then p.judgeHead f j hb
    else if x.st = .stopped ∧ !x.foreign ∧ p.launches ∧ !pathDisabled p.cfg h.path ∧ !pathStops f h.path then p.judgeHead f j hb
    else p) p

/-! ### Points at a boundary (R126, R129) -/

/-- What a kind 3 point reads of its port. -/
def PortSt.pointRaw (x : PortSt) (sig : Nat) : Nat :=
  match sig % 4 with
  | 0 => x.measured.num
  | 1 => x.power
  | 2 => x.cls
  | _ => x.clsB

/-- One more boundary for every point of an input kind. -/
def Plane.agePoints (p : Plane) : Plane :=
  p.forPoints (fun e => inputKind e.kind) fun p i => p.setPoint i { p.point i with age := (p.point i).age + 1 }

/-- Kind 3 points are refreshed at every boundary, and kind 7 points as their registers change. A refresh stamped with a tick is left to the tick after
it, so that what reads the points at that stamp finds what came before it (R128). (DESIGN CHOICE, unsafe: assumption 10.) -/
def Plane.refreshPorts (p : Plane) (f : FieldSide) : Plane :=
  p.forPoints (fun e => e.kind == 3) fun p i => p.refresh i ((f.port ((p.pm i).src % 128)).pointRaw (p.pm i).sig)

/-- STALE: UNCERTAIN above it; a frame or CAN point above four times it has lost its station. -/
def Plane.judgeAges (p : Plane) : Plane :=
  p.forPoints (fun e => inputKind e.kind && e.stale != 0) fun p i =>
    let e := p.pm i
    let age := (p.point i).age
    if (e.kind = 1 ∨ e.kind = 5) ∧ 4 * e.stale < age then p.pointBad i
    else if e.stale < age then p.pointUncertain i else p

/-! ### A boundary -/

/-- A running plane at a half-cycle boundary, before the field side has acted. -/
def Plane.boundary (p : Plane) (f : FieldSide) (now : Nat) : Plane :=
  if !p.running then p
  else
    let hb := halfOf now
    let p := (p.settleGap.rollModel hb).openTables f hb
    let p := (p.unpark hb).stopDown f now
    let p := p.rejudge f hb
    let p := if p.launches then p.loopRetry f hb else p
    let p := p.enterModel (hb + 64)
    p.agePoints.judgeAges.meterBoundary

/-- What the events of a tick's stamp leave to the tick after it (R128): the refreshes, and the points of ports that lost their link at a boundary. -/
def Plane.lateRefresh (p : Plane) (f : FieldSide) (now : Nat) : Plane :=
  if !p.running then p
  else
    let p := if now % 2048 = 1 then f.lostPorts.foldl Plane.portStationLost (p.refreshPorts f) else p
    p.meterRefresh now

/-- DIFF (R390): this plane's clock minus the other's, saturating. -/
def State.clockDiff (s : State) : State :=
  if s.a.running && s.b.running && s.a.red.syncUp && s.b.red.syncUp then
    let d : Int := (s.a.clockNow s.now : Int) - s.b.clockNow s.now
    let w (v : Int) : Word := w32 (toTwos 32 (clampI (-(2 ^ 31 - 1)) (2 ^ 31 - 1) v))
    (s.upd .a fun p => p.wr Reg.RTC_DIFF (w d)).upd .b fun p => p.wr Reg.RTC_DIFF (w (-d))
  else s

/-- Speed drops act as disablings at a boundary: what is queued at or after it is withdrawn, and bookings go by the new figures from it on (R115, R265). -/
def State.slowBoundary (s : State) : State :=
  let l := s.fs.fab.slower
  if l = [] then s
  else
    let s := s.field fun f =>
      let f := l.foldl (fun f path =>
        if path < 0x80 then f.setPort path { f.port path with rate := (f.port path).speed }
        else f.setUplink (path - 0x200) { f.uplink (path - 0x200) with rate := (f.uplink (path - 0x200)).tenG }) f
      { f with fab := { f.fab with slower := [] } }
    (s.updBoth fun p => (l.foldl (fun p path => p.disablePath path s.now) p).evt Reg.SWF_EVT 13).withdrawCancelled

/-- The field side at a boundary: speed drops, AVAIL, grants, checks, forwarding, and a new count of captured frames (R155 to R162, R265,
R267, R273). -/
def State.fieldBoundary (s : State) : State :=
  let s := s.slowBoundary
  let s := if s.fs.stopped then s else (s.availBoundary.regrant).grantPorts.checkPorts
  let s := s.moveForwarding
  s.field fun f => { f with ports := f.ports.map (fun e => (e.1, e.2.endHalf)),
                            made := f.made.filter fun e => decide (s.now ≤ e.2 + 131072) }

/-- The work of a half-cycle boundary. -/
def State.halfBoundary (s : State) : State :=
  let s := s.fixPeriod
  let f := s.fs
  let s := (s.upd .a fun p => p.boundary f s.now).upd .b fun p => p.boundary f s.now
  s.fieldBoundary.clockDiff.endBulk

/-- HALF_CYCLE_BOUNDARY (R9). -/
def execHalfCycleBoundary (s : State) : Host.Outcome State Fault Refusal := .next (if s.now % 2048 = 0 then s.halfBoundary else s)

/-- The copies of the SYS pages for the aliases (R52). -/
def State.copyAlias (s : State) : State :=
  if s.a.running && s.b.running && s.a.red.syncUp && s.b.red.syncUp then
    let a := s.sysCopy .a
    let b := s.sysCopy .b
    (s.upd .a fun p => { p with alias_ := some b }).upd .b fun p => { p with alias_ := some a }
  else (s.upd .a fun p => { p with alias_ := none }).upd .b fun p => { p with alias_ := none }

/-- SYS_ALIAS_UPDATE (R52). -/
def execSysAliasUpdate (s : State) : Host.Outcome State Fault Refusal := .next (if s.now % 2048 = 0 then s.copyAlias else s)

end Sys2Proof.Machine
end

