-- ==== Sys2Proof/Machine/Tick.lean ====
section
/-!
DEFINITION. What a tick of Ripple time brings of itself (R7, R8, R9). With no command waiting, the step lets one tick pass and puts in the
queue, in order, the commands whose moment the spec fixes by a stamp or a true time that the state holds. Commands whose moment is
measured, or that the spec only bounds, come from outside.
-/
namespace Sys2Proof.Machine

/-- The commands of a list where a condition holds. -/
def onlyIf (b : Bool) (l : List Instr) : List Instr := if b then l else []

/-- Commands for both planes, each where its own condition holds. -/
def bothIf (s : State) (q : Plane → Bool) (f : PlaneId → List Instr) : List Instr :=
  onlyIf (q s.a) (f .a) ++ onlyIf (q s.b) (f .b)

/-! ### At boundaries -/

/-- The RUN commands that both planes act on once the groups due here have applied, in order (R57, R207). -/
def State.runCommands (s : State) : List Instr :=
  let t := s.applyConfig
  let a := t.a.scan.cmd
  let b := t.b.scan.cmd
  let one (c : Nat) : List Instr :=
    if c = 1 then [.scanLoad] else if c = 2 then [.startWarm] else if c = 3 then [.startCold] else if c = 4 then [.stop] else []
  (List.range (max a.length b.length)).flatMap fun n =>
    let x := a.getD n 0
    let y := b.getD n 0
    one x ++ (if y = x then [] else one y)

/-- At tick 0 of a cycle: the cycle, what its judgement leads to, then adoption of its number (R69, R73, R80, R86). -/
def State.cycleDue (s : State) : List Instr :=
  let any (st : MpeState) : Bool := s.a.mpe.st == st || s.b.mpe.st == st
  onlyIf (s.now % 4096 == 0)
    ([.cycleStart s.fs.meas] ++ onlyIf (any .locked || any .relock) [.l1Disturbed] ++
      bothIf s (fun p => p.running && p.mpe.st == .acquire) (fun i => [.lockAcquired i]) ++ onlyIf (any .flywheel) [.l1Good] ++
      onlyIf (any .relock) [.relockDone] ++ onlyIf s.fs.power.slw [.mainsOk] ++
      onlyIf (s.a.mpe.adopt.isSome || s.b.mpe.adopt.isSome) [.adopt])

/-- What the judgement of the phases at a tick leads to (R72, R78). -/
def State.judgedDue (s : State) : List Instr :=
  onlyIf (!s.fs.power.slw && (s.a.running && s.a.slwDue || s.b.running && s.b.slwDue)) [.supplyLossWarning] ++
    onlyIf ([s.a, s.b].any fun p => p.running && (p.mpe.st == .locked || p.mpe.st == .relock) && p.l1Disturbed) [.l1Disturbed]

/-- A forward step waits, counting one asked for in a group that applies at this boundary (R88). -/
def State.realignDue (s : State) : Bool :=
  s.now % 4096 == 0 && (s.applyConfig.a.mpe.realign || s.applyConfig.b.mpe.realign)

/-- The decisions on the commands of a complete image, at the boundary that submits it (R109, R208); at most 48 fit a tick. -/
def Plane.imageDecides (p : Plane) : List Instr :=
  match p.scan.image with
  | some im => onlyIf p.isActive (List.replicate (min 48 (im.fires.length + (p.pointIdx.filter fun k => (p.pm k).kind == 4).length)) (.weirDecide p.id))
  | none => []

/-- What a plane sends at the start of a half-cycle for the next one (R120): booked commands, commands moved to their recovery tick
(R111, R118), standing heads and intents. A head that is not ARMED sends nothing. -/
def Plane.launchSends (p : Plane) (now : Nat) : List Instr :=
  let k := halfOf now + 1
  ((p.slotsIn fun x => (x.st == .booked && decide (halfOf x.launch ≤ k)) || (x.st == .sent && x.moved && halfOf x.launch == k)).map fun n => Instr.launchSend p.id (.slot (slotFin n))) ++
  ((p.heads.filter fun e => e.2.st != .none && (headTick (atHead p.cfg e.1) k).isSome).map fun e =>
    Instr.launchSend p.id (.head (Fin.ofNat 4096 e.1))) ++
  ((p.weir.intentBooks.filter fun e => halfOf e.2 == k).map fun e => Instr.launchSend p.id (.intent (Fin.ofNat 128 e.1)))

/-- At a half-cycle boundary: configuration first (R57), then the boundary's own work, the intervals, the images, the launches to
build and send (R120, R138) and the scans. -/
def State.boundaryDue (s : State) : List Instr :=
  if s.now % 2048 ≠ 0 then []
  else
    (onlyIf (s.fs.restart.any fun r => r.step == 0 && decide (r.at_ ≤ s.now)) [.moduleRestartDisable] ++
     onlyIf (!s.a.grps.isEmpty || !s.b.grps.isEmpty) [.configGroupApply] ++ onlyIf s.realignDue [.realigned] ++ s.runCommands ++
     [.halfCycleBoundary] ++
     bothIf s (fun p => p.acct.running && s.now % 4096 == 0) (fun i => [.intervalClose i]) ++ [.sysAliasUpdate] ++
     bothIf s (fun p => p.scan.image.any ScanImage.complete) (fun i => [.scanImageSubmit i]) ++
     bothIf s (fun p => p.scan.image.any ScanImage.complete) (fun i => (s.plane i).imageDecides) ++
     (let t := s.applyConfig
      bothIf t Plane.running (fun i => (t.plane i).launchSends t.now)) ++
     bothIf s Plane.dataPath (fun i => [.scanBoundary i]) ++ onlyIf (s.fs.waking != []) [.wakeLaunch])

/-- At a quarter-cycle boundary and 24 ticks after it: the loops (R227). -/
def State.loopsDue (s : State) : List Instr :=
  onlyIf (s.now % 1024 == 0 || s.now % 1024 == 24) (bothIf s (fun p => p.running && p.dataPath) fun i => [.loopSample i []])

/-! ### Launches and the lease -/

/-- Whether a plane renews at a stamp (R248, R249): once at the start of each half-cycle, or every 128 ticks. -/
def Plane.renews (p : Plane) (now : Nat) : Bool :=
  p.isActive && (if bit (p.cfg Reg.RED_AUTH) 0 then now % 128 == 1 else now % 2048 == 1)

/-- The active plane's P(c) goes to the standby over the sync link, once for each cycle (R70, R240). -/
def State.steerDue (s : State) : List Instr :=
  match s.active? with
  | some i => onlyIf ((s.plane i).red.syncUp && (s.plane i.other).running) [.steerDiff (s.plane i).mpe.own]
  | none => []

/-- Sends one tick after a boundary, with what the boundary left (R70, R82, R248). -/
def State.sendsDue (s : State) : List Instr :=
  onlyIf (s.now % 4096 == 1) ([.cycleAnnouncementSend] ++ s.steerDue) ++
  bothIf s (fun p => p.renews s.now) fun i => [.renewSend i]

/-- Launches whose tick has come, and commands whose allowance has passed (R97, R98, R100). -/
def State.launchesDue (s : State) : List Instr :=
  ((s.fs.lq.filter fun l => l.tick == s.now && !l.released).map fun l => Instr.launchRelease l.plane l.standing l.slot l.seq) ++
  ((below 256 fun n => [s.a, s.b].any fun p =>
      let x := p.slot n
      x.st == .launched && decide (x.launch + allowance p.cfg x.path < s.now)).map fun n => Instr.allowanceExpiry (slotFin n))

/-- The Authority Unit's and the planes' timed steps (R245 to R249, R255, R256, R260, R425). -/
def State.leaseDue (s : State) : List Instr :=
  let u := s.fs.au
  let ran (i : PlaneId) : Bool := (u.old == some i && decide (u.oldExpiry ≤ s.now)) || (u.holder == some i && decide (u.expiry ≤ s.now))
  let free (p : Plane) : Bool := p.live && p.red.role == .offline && !p.red.claiming
  onlyIf (ran .a) [.leaseExpiry .a] ++ onlyIf (ran .b) [.leaseExpiry .b] ++
  onlyIf (u.guardEnd.any fun t => decide (t ≤ s.now)) [.guardExpiry] ++
  onlyIf (u.old.isSome && decide (u.overlapEnd ≤ s.ttNow)) [.overlapMax] ++
  onlyIf (u.mode == 1 && [s.a, s.b].any fun p => p.running && p.red.role == .standby && decide (p.red.lastRenewed + 1536 ≤ s.now) &&
    !p.red.claiming) [.heartbeatLoss] ++
  onlyIf ([s.a, s.b].any fun p => p.isActive && p.red.drill.any fun d =>
    d == s.now + 2048 || d == s.now || (decide (d < s.now) && u.holder == some p.id)) [.drill] ++
  onlyIf ([s.a, s.b].any fun p => p.running && p.red.syncUp && decide (p.red.lastFrame + 64 ≤ s.now)) [.syncDown] ++
  bothIf s (fun p => p.resyncOver s.now) (fun i => [.resyncFail i]) ++
  bothIf s (fun p => free p && !p.start.zeroed) (fun i => [.startClaim i]) ++
  bothIf s (fun p => free p && p.start.zeroed) (fun i => [.delayedClaim i]) ++
  bothIf s (fun p => p.running && p.red.role == .resync && p.red.phase == 0 && p.red.retryAt.any fun t => decide (t ≤ s.ttNow))
    fun i => [.resyncRetry i]

/-! ### Timers in true time -/

/-- A plane's own timers. -/
def Plane.timersDue (p : Plane) (f : FieldSide) (now : Nat) : List Instr :=
  let i := p.id
  let tt := p.tt now
  let gone (t : Option Nat) : Bool := t.any fun t => decide (t ≤ tt)
  onlyIf p.running (
    onlyIf (now % 16 == 0 && p.red.syncUp) [.syncHeartbeat i] ++
    List.replicate (min 48 (p.weir.subs.length + if p.isActive then p.weir.scanQ.length else 0)) (.weirDecide i) ++
    ((below 8 fun k => p.waitOver k now).map fun k => .evtWaitAnswer i (Fin.ofNat 8 k)) ++
    onlyIf (p.mpe.cyc == .none && p.mpe.lockedTt.any fun t =>
      decide (t + max 1 (fld (p.cfg Reg.PTP_CYC_CFG) 31 24) * 1000000000 ≤ tt)) [.adoptWaitExpiry i] ++
    onlyIf (p.boot.load.any fun l => !l.verifying && decide (l.lastTt + 10000000000 ≤ tt)) [.imgTimeout i] ++
    onlyIf (p.tarn.run.isNone && (p.tarn.next != [] || p.tarn.nextAll)) [.storeStart i] ++
    onlyIf (p.start.pfAt.isNone && decide (p.evr.sealTt + max 1 (p.rdF Reg.EVR_CFG 7 0) * 60000000000 ≤ tt)) [.chainSeal i] ++
    ((below 6 fun a => p.overdue f a now && p.rdF Reg.BKG_DEFER a a == 0).map fun a => .bkgDeferred i (Fin.ofNat 6 a)) ++
    onlyIf (p.start.fltTt.any fun t => decide (t + 10000000000 ≤ tt)) [.autoRestart i] ++
    onlyIf (gone p.start.relayTest) [.relayTestEnd i]) ++
  onlyIf (gone p.rtc.pwron) [.pwronRequestEnd (some i)]

/-- The field side's timers (R160, R161, R192, R267, R275, R396, R427, R431, R446). -/
def State.fieldTimers (s : State) : List Instr :=
  let tt := s.ttNow
  let f := s.fs
  let gone (t : Option Nat) : Bool := t.any fun t => decide (t ≤ tt)
  let rt := max 20 (min 200 (fld (s.cfg Reg.PWR_CFG) 7 0))
  onlyIf (f.power.ride && decide (f.power.slwTt + rt * 1000000 ≤ tt)) [.rideThroughEnd false] ++
  onlyIf (f.power.slw && f.power.rideEnd.any fun t => decide (t < s.now)) [.shed] ++
  onlyIf (f.restart.any fun r => r.step == 1 && decide (r.at_ + 2048 ≤ s.now)) [.moduleRestartDisable] ++
  onlyIf (f.restart.any fun r => r.step == 2) [.moduleReset] ++
  onlyIf (f.power.shed && !f.power.slw && f.power.okTt.any fun t => decide (t + 1000000000 ≤ tt)) [.mainsReturnRestart] ++
  (f.pulses.filter fun e => e.2.active && decide (e.2.until_ ≤ tt)).map (fun e => Instr.pulseEnd (Fin.ofNat 8 e.1)) ++
  (f.pulses.filter fun e => !e.2.active && decide (0 < e.2.queued) && decide (e.2.until_ ≤ tt)).map (fun e => Instr.pulseStart (Fin.ofNat 8 e.1)) ++
  (let age := max 10 (fld (s.cfg Reg.SWF_CFG) 31 16)
   (f.fab.fdb.filter fun e => decide (e.used + age * 1000000000 ≤ tt)).map fun e => .fdbAgeExpiry (BitVec.ofNat 48 e.mac) (BitVec.ofNat 12 e.vid)) ++
  (f.phy.filter fun e => gone e.2.pauseUntil).map (fun e => Instr.pauseExpiry (Fin.ofNat 132 e.1)) ++
  (f.upl.filter fun e => gone e.2.pauseUntil).map (fun e => Instr.pauseExpiry (Fin.ofNat 132 (128 + e.1))) ++
  (f.supplies.filter fun e => !e.2.on && gone e.2.retryAt).map (fun e => Instr.fieldSupplyRetry (Fin.ofNat 4 e.1)) ++
  onlyIf (gone f.pwron) [.pwronRequestEnd none]

/-! ### A tick -/

/-- OPTIME counts 1/256 s while the plane is powered (R369), here in units of 2^-16 ns of true time. (DESIGN CHOICE, unsafe: assumption 11.) -/
def Plane.opTick (p : Plane) : Plane :=
  if p.phase = .unpowered then p
  else
    let n := p.evr.optFrac + p.mpe.per
    { p with evr := { p.evr with optime := p.evr.optime + n / 256000000000, optFrac := n % 256000000000 } }

/-- A powered plane's work of a tick: the judgement of the mains, Basins waking and clearing, operating time, and in PF_HOLD records straight to
Tarn (R72, R78, R405, R430). -/
def Plane.tickWork (p : Plane) (now : Nat) : Plane :=
  if p.phase = .unpowered then p
  else
    let p := (if p.running then p.judgeSamples now else p).clearTick.settleBasins.opTick
    if p.start.pfAt.isSome && p.evr.staged != [] then p.flush else p

/-- A yield at its boundary (R243, R435): the plane hands over to a standby still in step, and otherwise keeps the lease. -/
def State.yieldDue (s : State) : State :=
  match s.active? with
  | none => s
  | some i => match (s.plane i).red.yield_ with
    | none => s
    | some b =>
      if s.now < b ∨ s.fs.au.holder ≠ some i then s
      else if s.inStep i then s.handOver i
      else s.updBoth fun p => p.updRed fun r => { r with yield_ := none }

/-- A RELEASE whose stamp has passed with nothing else to act on it takes effect (R245). -/
def State.releaseDue (s : State) : State :=
  match s.fs.au.release with
  | some (_, d) => if d < s.now then s.auReleaseAt else s
  | none => s

/-- Uplink launches held in a switch-over gap start once a plane drives again, unless a pause still holds them (R252, R276). (DEDUCED, unsafe: assumption 36.) -/
def State.startWaiting (s : State) : State :=
  if s.fs.inGap s.now then s
  else (s.fs.upl.filter fun e => e.2.held != [] && !e.2.paused).foldl (fun s e => s.startHeld e.1) s

/-- Everything that a tick does of itself, before the commands that fall due at it. -/
def State.tickWork (s : State) : State :=
  let s := s.field fun f => { f with fab := { f.fab with sent := [], ptpSent := [], stamps := [] }, out := f.out.filter fun o => decide (s.now ≤ o.at_ + 4) }
  let s := { s with a := (s.a.lateRefresh s.fs s.now).tickWork s.now, b := (s.b.lateRefresh s.fs s.now).tickWork s.now }
  let s := if s.now % 2048 = 1 then s.field fun f => { f with lostPorts := [] } else s
  let s := (s.releaseDue.yieldDue.leaveDue.settleAuthority).powerUps.startWaiting.serveAll
  ((s.settleRestart .a).settleRestart .b).settleRelay

/-- The commands that fall due at the current stamp: what was under way first, then boundaries, loops, sends, launches, the lease and the
timers. (DESIGN CHOICE, unsafe: assumption 2.) -/
def State.dueNow (s : State) : List Instr :=
  (s.fs.due.filter fun e => decide (e.1 ≤ s.now)).map Prod.snd ++ s.cycleDue ++ s.judgedDue ++ s.boundaryDue ++ s.loopsDue ++ s.sendsDue ++
    s.launchesDue ++ s.leaseDue ++ s.a.timersDue s.fs s.now ++ s.b.timersDue s.fs s.now ++ s.fieldTimers

/-- One tick passes. (DESIGN CHOICE, unsafe: assumption 1.) -/
def State.tick (s : State) : State :=
  let s := { s with now := s.now + 1 }
  let ends := bothIf s (fun p => p.phase != .unpowered) fun i => (s.plane i).clearsDue.map fun b => .basinClearDone i (Fin.ofNat 64 b)
  let s := s.tickWork
  { (s.field fun f => { f with due := f.due.filter fun e => !decide (e.1 ≤ s.now) }) with pending := s.pending ++ s.dueNow ++ ends }

end Sys2Proof.Machine
end

