-- ==== Sys2Proof/Machine/Dispatch.lean ====
section
/-!
DEFINITION. What each command does: one arm per constructor of `Instr`, each a direct call of the command's own meaning.
-/
namespace Sys2Proof.Machine

/-- The effect of a command on everything but the queue. -/
def exec (i : Instr) (s : State) : Host.Outcome State Fault Refusal :=
  match i with
  | .registerWrite p tag be addr data => Sys2Proof.Machine.execRegisterWrite p tag be addr data s
  | .rcRead p tag addr => Sys2Proof.Machine.execRcRead p tag addr s
  | .wideLowRead p tag addr => Sys2Proof.Machine.execWideLowRead p tag addr s
  | .wideHighWrite p tag be addr data => Sys2Proof.Machine.execWideHighWrite p tag be addr data s
  | .seal p tag be page data => Sys2Proof.Machine.execSeal p tag be page data s
  | .softRst p tag page => Sys2Proof.Machine.execSoftRst p tag page s
  | .windowEntryWrite p tag be addr data => Sys2Proof.Machine.execWindowEntryWrite p tag be addr data s
  | .hold p tag => Sys2Proof.Machine.execHold p tag s
  | .holdClear p tag => Sys2Proof.Machine.execHoldClear p tag s
  | .discard p tag => Sys2Proof.Machine.execDiscard p tag s
  | .configGroupApply => Sys2Proof.Machine.execConfigGroupApply s
  | .configGroupSync group => Sys2Proof.Machine.execConfigGroupSync group s
  | .sysAliasUpdate => Sys2Proof.Machine.execSysAliasUpdate s
  | .moarnoRead p session head addr seq => Sys2Proof.Machine.execMoarnoRead p session head addr seq s
  | .moarnoWrite p session group words addr seq data => Sys2Proof.Machine.execMoarnoWrite p session group words addr seq data s
  | .moarnoCmdSubmit p session words addr seq data => Sys2Proof.Machine.execMoarnoCmdSubmit p session words addr seq data s
  | .moarnoEvtWait p session words addr seq data => Sys2Proof.Machine.execMoarnoEvtWait p session words addr seq data s
  | .evtWaitAnswer p session => Sys2Proof.Machine.execEvtWaitAnswer p session s
  | .moarnoSessionOpen p session tag anchor valid => Sys2Proof.Machine.execMoarnoSessionOpen p session tag anchor valid s
  | .moarnoSessionClose p session => Sys2Proof.Machine.execMoarnoSessionClose p session s
  | .cycleStart m => Sys2Proof.Machine.execCycleStart m s
  | .halfCycleBoundary => Sys2Proof.Machine.execHalfCycleBoundary s
  | .lockAcquired p => Sys2Proof.Machine.execLockAcquired p s
  | .l1Disturbed => Sys2Proof.Machine.execL1Disturbed s
  | .l1Good => Sys2Proof.Machine.execL1Good s
  | .relockDone => Sys2Proof.Machine.execRelockDone s
  | .steerDiff period => Sys2Proof.Machine.execSteerDiff period s
  | .supplyLossWarning => Sys2Proof.Machine.execSupplyLossWarning s
  | .mainsOk => Sys2Proof.Machine.execMainsOk s
  | .ptpMessageReceive uplink msg => Sys2Proof.Machine.execPtpMessageReceive uplink msg s
  | .announceReceiptTimeout => Sys2Proof.Machine.execAnnounceReceiptTimeout s
  | .cycleAnnouncementSend => Sys2Proof.Machine.execCycleAnnouncementSend s
  | .cycleAnnouncementReceive bytes => Sys2Proof.Machine.execCycleAnnouncementReceive bytes s
  | .adopt => Sys2Proof.Machine.execAdopt s
  | .adoptWaitExpiry p => Sys2Proof.Machine.execAdoptWaitExpiry p s
  | .realign p tag => Sys2Proof.Machine.execRealign p tag s
  | .realigned => Sys2Proof.Machine.execRealigned s
  | .cmdSubmit p tag be data => Sys2Proof.Machine.execCmdSubmit p tag be data s
  | .weirDecide p => Sys2Proof.Machine.execWeirDecide p s
  | .decisionSync d => Sys2Proof.Machine.execDecisionSync d s
  | .launchSend p src => Sys2Proof.Machine.execLaunchSend p src s
  | .lfabBlockReceive p toField link bytes => Sys2Proof.Machine.execLfabBlockReceive p toField link bytes s
  | .lfabNakReceive p link lseq => Sys2Proof.Machine.execLfabNakReceive p link lseq s
  | .linkDown p link => Sys2Proof.Machine.execLinkDown p link s
  | .inject p tag link => Sys2Proof.Machine.execInject p tag link s
  | .launchRelease p standing slot seq => Sys2Proof.Machine.execLaunchRelease p standing slot seq s
  | .transmissionStart path slot seq => Sys2Proof.Machine.execTransmissionStart path slot seq s
  | .allowanceExpiry slot => Sys2Proof.Machine.execAllowanceExpiry slot s
  | .doneClear p tag k mask => Sys2Proof.Machine.execDoneClear p tag k mask s
  | .abort p tag slot => Sys2Proof.Machine.execAbort p tag slot s
  | .abortReport slot removed => Sys2Proof.Machine.execAbortReport slot removed s
  | .portSignatureFound port dual => Sys2Proof.Machine.execPortSignatureFound port dual s
  | .detectionRetry port => Sys2Proof.Machine.execDetectionRetry port s
  | .classMeasured port k kb => Sys2Proof.Machine.execClassMeasured port k kb s
  | .signatureRecheck port present => Sys2Proof.Machine.execSignatureRecheck port present s
  | .powerUpRegulation port => Sys2Proof.Machine.execPowerUpRegulation port s
  | .inrush port => Sys2Proof.Machine.execInrush port s
  | .mpsLost port => Sys2Proof.Machine.execMpsLost port s
  | .overload port short => Sys2Proof.Machine.execOverload port short s
  | .faultRetry port => Sys2Proof.Machine.execFaultRetry port s
  | .pseFault group => Sys2Proof.Machine.execPseFault group s
  | .cellFault cell => Sys2Proof.Machine.execCellFault cell s
  | .rideThroughEnd store => Sys2Proof.Machine.execRideThroughEnd store s
  | .shed => Sys2Proof.Machine.execShed s
  | .wakeLaunch => Sys2Proof.Machine.execWakeLaunch s
  | .meterSample payload => Sys2Proof.Machine.execMeterSample payload s
  | .meterChannelFault p channel faulted => Sys2Proof.Machine.execMeterChannelFault p channel faulted s
  | .calibrationCheck p channel ppm => Sys2Proof.Machine.execCalibrationCheck p channel ppm s
  | .intervalClose p => Sys2Proof.Machine.execIntervalClose p s
  | .pulseStart n => Sys2Proof.Machine.execPulseStart n s
  | .pulseEnd n => Sys2Proof.Machine.execPulseEnd n s
  | .digestReceive p kind stamp digest => Sys2Proof.Machine.execDigestReceive p kind stamp digest s
  | .digestTimeout p kind stamp => Sys2Proof.Machine.execDigestTimeout p kind stamp s
  | .selfCheckResult activePass standbyPass => Sys2Proof.Machine.execSelfCheckResult activePass standbyPass s
  | .join p => Sys2Proof.Machine.execJoin p s
  | .resyncCaughtUp p digest => Sys2Proof.Machine.execResyncCaughtUp p digest s
  | .resyncFail p => Sys2Proof.Machine.execResyncFail p s
  | .resyncRetry p => Sys2Proof.Machine.execResyncRetry p s
  | .syncHeartbeat p => Sys2Proof.Machine.execSyncHeartbeat p s
  | .syncDown => Sys2Proof.Machine.execSyncDown s
  | .renewSend p => Sys2Proof.Machine.execRenewSend p s
  | .renew block => Sys2Proof.Machine.execRenew block s
  | .claim block => Sys2Proof.Machine.execClaim block s
  | .release block => Sys2Proof.Machine.execRelease block s
  | .leaseExpiry p => Sys2Proof.Machine.execLeaseExpiry p s
  | .guardExpiry => Sys2Proof.Machine.execGuardExpiry s
  | .heartbeatLoss => Sys2Proof.Machine.execHeartbeatLoss s
  | .overlapMax => Sys2Proof.Machine.execOverlapMax s
  | .leaseReport payload stamp => Sys2Proof.Machine.execLeaseReport payload stamp s
  | .startClaim p => Sys2Proof.Machine.execStartClaim p s
  | .drillArm p tag => Sys2Proof.Machine.execDrillArm p tag s
  | .drillCancel p tag => Sys2Proof.Machine.execDrillCancel p tag s
  | .drill => Sys2Proof.Machine.execDrill s
  | .scanLoad => Sys2Proof.Machine.execScanLoad s
  | .checkDone p => Sys2Proof.Machine.execCheckDone p s
  | .startWarm => Sys2Proof.Machine.execStartWarm s
  | .startCold => Sys2Proof.Machine.execStartCold s
  | .stop => Sys2Proof.Machine.execStop s
  | .scanBoundary p => Sys2Proof.Machine.execScanBoundary p s
  | .scanComplete p ns => Sys2Proof.Machine.execScanComplete p ns s
  | .scanImageSubmit p => Sys2Proof.Machine.execScanImageSubmit p s
  | .go p tag count => Sys2Proof.Machine.execGo p tag count s
  | .chgItemWrite p tag be k data => Sys2Proof.Machine.execChgItemWrite p tag be k data s
  | .loopSample p stalled => Sys2Proof.Machine.execLoopSample p stalled s
  | .loopRecordWrite p tag be data => Sys2Proof.Machine.execLoopRecordWrite p tag be data s
  | .loopSectionWrite p tag be data => Sys2Proof.Machine.execLoopSectionWrite p tag be data s
  | .swap p tag reset => Sys2Proof.Machine.execSwap p tag reset s
  | .clear p tag => Sys2Proof.Machine.execClear p tag s
  | .rearm p tag => Sys2Proof.Machine.execRearm p tag s
  | .frameReceive port frame aligned full => Sys2Proof.Machine.execFrameReceive port frame aligned full s
  | .portLinkChange port link => Sys2Proof.Machine.execPortLinkChange port link s
  | .uplinkLinkChange u link tenG partnerPause => Sys2Proof.Machine.execUplinkLinkChange u link tenG partnerPause s
  | .moduleChange u module => Sys2Proof.Machine.execModuleChange u module s
  | .fdbAgeExpiry mac vid => Sys2Proof.Machine.execFdbAgeExpiry mac vid s
  | .pauseReceive port quanta => Sys2Proof.Machine.execPauseReceive port quanta s
  | .pauseExpiry port => Sys2Proof.Machine.execPauseExpiry port s
  | .wakeFilterWrite p tag k data => Sys2Proof.Machine.execWakeFilterWrite p tag k data s
  | .mgmtFrame p kind service => Sys2Proof.Machine.execMgmtFrame p kind service s
  | .canArbitrationStart ch => Sys2Proof.Machine.execCanArbitrationStart ch s
  | .canAttemptEnd ch result => Sys2Proof.Machine.execCanAttemptEnd ch result s
  | .canFrameReceive ch msg => Sys2Proof.Machine.execCanFrameReceive ch msg s
  | .rxRelease p tag ch k mask => Sys2Proof.Machine.execRxRelease p tag ch k mask s
  | .recover p tag ch => Sys2Proof.Machine.execRecover p tag ch s
  | .canRecovered ch => Sys2Proof.Machine.execCanRecovered ch s
  | .fieldSupplyOvercurrent c => Sys2Proof.Machine.execFieldSupplyOvercurrent c s
  | .fieldSupplyRetry c => Sys2Proof.Machine.execFieldSupplyRetry c s
  | .fieldSupplyTotalOverload ma => Sys2Proof.Machine.execFieldSupplyTotalOverload ma s
  | .generate p tag => Sys2Proof.Machine.execGenerate p tag s
  | .derive p tag => Sys2Proof.Machine.execDerive p tag s
  | .import_ p tag => Sys2Proof.Machine.execImport_ p tag s
  | .keyVerify p tag => Sys2Proof.Machine.execKeyVerify p tag s
  | .commit p tag => Sys2Proof.Machine.execCommit p tag s
  | .keyDiscard p tag => Sys2Proof.Machine.execKeyDiscard p tag s
  | .invalidate p tag => Sys2Proof.Machine.execInvalidate p tag s
  | .keyOpDone p => Sys2Proof.Machine.execKeyOpDone p s
  | .keyEraseDone p => Sys2Proof.Machine.execKeyEraseDone p s
  | .zeroAll p tag => Sys2Proof.Machine.execZeroAll p tag s
  | .reenrol p tag => Sys2Proof.Machine.execReenrol p tag s
  | .entropyFail p => Sys2Proof.Machine.execEntropyFail p s
  | .wellspringHealthCheck p ok => Sys2Proof.Machine.execWellspringHealthCheck p ok s
  | .hash p tag => Sys2Proof.Machine.execHash p tag s
  | .hmac p tag slot => Sys2Proof.Machine.execHmac p tag slot s
  | .sign p tag slot prehashed => Sys2Proof.Machine.execSign p tag slot prehashed s
  | .verify p tag slot prehashed => Sys2Proof.Machine.execVerify p tag slot prehashed s
  | .encrypt p tag slot => Sys2Proof.Machine.execEncrypt p tag slot s
  | .decrypt p tag slot => Sys2Proof.Machine.execDecrypt p tag slot s
  | .random p tag => Sys2Proof.Machine.execRandom p tag s
  | .quote p tag => Sys2Proof.Machine.execQuote p tag s
  | .statement p tag slot => Sys2Proof.Machine.execStatement p tag slot s
  | .devcert p tag => Sys2Proof.Machine.execDevcert p tag s
  | .cryptoOpDone p => Sys2Proof.Machine.execCryptoOpDone p s
  | .imgStart p tag program => Sys2Proof.Machine.execImgStart p tag program s
  | .imgData p tag data => Sys2Proof.Machine.execImgData p tag data s
  | .finish p tag program => Sys2Proof.Machine.execFinish p tag program s
  | .imgAbort p tag program => Sys2Proof.Machine.execImgAbort p tag program s
  | .imgVerifyDone p => Sys2Proof.Machine.execImgVerifyDone p s
  | .imgTimeout p => Sys2Proof.Machine.execImgTimeout p s
  | .peer p => Sys2Proof.Machine.execPeer p s
  | .activate p tag => Sys2Proof.Machine.execActivate p tag s
  | .confirm p tag => Sys2Proof.Machine.execConfirm p tag s
  | .advance p tag => Sys2Proof.Machine.execAdvance p tag s
  | .trialFail p => Sys2Proof.Machine.execTrialFail p s
  | .entropyRecovered p => Sys2Proof.Machine.execEntropyRecovered p s
  | .tarnStore p tag => Sys2Proof.Machine.execTarnStore p tag s
  | .storeStart p => Sys2Proof.Machine.execStoreStart p s
  | .stored p => Sys2Proof.Machine.execStored p s
  | .unlock p tag region write => Sys2Proof.Machine.execUnlock p tag region write s
  | .set_ p tag region write => Sys2Proof.Machine.execSet_ p tag region write s
  | .relock p tag region write => Sys2Proof.Machine.execRelock p tag region write s
  | .winWrite p tag be k data => Sys2Proof.Machine.execWinWrite p tag be k data s
  | .hCommit p tag => Sys2Proof.Machine.execHCommit p tag s
  | .hDiscard p tag => Sys2Proof.Machine.execHDiscard p tag s
  | .flush p tag => Sys2Proof.Machine.execFlush p tag s
  | .chainSeal p => Sys2Proof.Machine.execChainSeal p s
  | .first p tag => Sys2Proof.Machine.execFirst p tag s
  | .firstCirc p tag => Sys2Proof.Machine.execFirstCirc p tag s
  | .next p tag => Sys2Proof.Machine.execNext p tag s
  | .seek p tag => Sys2Proof.Machine.execSeek p tag s
  | .recordLoadDone p path => Sys2Proof.Machine.execRecordLoadDone p path s
  | .appNote p tag len sev priv => Sys2Proof.Machine.execAppNote p tag len sev priv s
  | .subsecRead p tag => Sys2Proof.Machine.execSubsecRead p tag s
  | .writeGo p tag => Sys2Proof.Machine.execWriteGo p tag s
  | .shift p tag value => Sys2Proof.Machine.execShift p tag value s
  | .rtcSecondBoundary p => Sys2Proof.Machine.execRtcSecondBoundary p s
  | .crystalStop p => Sys2Proof.Machine.execCrystalStop p s
  | .arm p tag u comps => Sys2Proof.Machine.execArm p tag u comps s
  | .disarm p tag u comps => Sys2Proof.Machine.execDisarm p tag u comps s
  | .periodicWakeFire p k => Sys2Proof.Machine.execPeriodicWakeFire p k s
  | .pwronRequestEnd source => Sys2Proof.Machine.execPwronRequestEnd source s
  | .crystalRestart p => Sys2Proof.Machine.execCrystalRestart p s
  | .basinAccess p b reqs => Sys2Proof.Machine.execBasinAccess p b reqs s
  | .bCfgWrite p tag be data => Sys2Proof.Machine.execBCfgWrite p tag be data s
  | .basinClearDone p b => Sys2Proof.Machine.execBasinClearDone p b s
  | .scrub p b found => Sys2Proof.Machine.execScrub p b found s
  | .regionTest p pass => Sys2Proof.Machine.execRegionTest p pass s
  | .leakageCheck port result => Sys2Proof.Machine.execLeakageCheck port result s
  | .telemetry t => Sys2Proof.Machine.execTelemetry t s
  | .runNow p tag acts => Sys2Proof.Machine.execRunNow p tag acts s
  | .bkgDeferred p act => Sys2Proof.Machine.execBkgDeferred p act s
  | .modulePowerOn backupA backupB => Sys2Proof.Machine.execModulePowerOn backupA backupB s
  | .planeStart p m => Sys2Proof.Machine.execPlaneStart p m s
  | .delayedClaim p => Sys2Proof.Machine.execDelayedClaim p s
  | .planeRestart p tag => Sys2Proof.Machine.execPlaneRestart p tag s
  | .moduleRestartWarm p tag => Sys2Proof.Machine.execModuleRestartWarm p tag s
  | .moduleRestartCold p tag => Sys2Proof.Machine.execModuleRestartCold p tag s
  | .moduleRestartDisable => Sys2Proof.Machine.execModuleRestartDisable s
  | .moduleReset => Sys2Proof.Machine.execModuleReset s
  | .watchdog p => Sys2Proof.Machine.execWatchdog p s
  | .supplyMonitorFail p => Sys2Proof.Machine.execSupplyMonitorFail p s
  | .supercapStop p => Sys2Proof.Machine.execSupercapStop p s
  | .mainsReturnRestart => Sys2Proof.Machine.execMainsReturnRestart s
  | .holdupTest p ms => Sys2Proof.Machine.execHoldupTest p ms s
  | .faultRaised p reg bit => Sys2Proof.Machine.execFaultRaised p reg bit s
  | .faultCleared p reg bit => Sys2Proof.Machine.execFaultCleared p reg bit s
  | .autoRestart p => Sys2Proof.Machine.execAutoRestart p s
  | .relayTest p tag => Sys2Proof.Machine.execRelayTest p tag s
  | .relayTestEnd p => Sys2Proof.Machine.execRelayTestEnd p s
  | .syncLinkUp => Sys2Proof.Machine.execSyncLinkUp s
  | .linkUp p link => Sys2Proof.Machine.execLinkUp p link s
  | .dynamicStateArrival p => Sys2Proof.Machine.execDynamicStateArrival p s
  | .abortSync slot answer stamp => Sys2Proof.Machine.execAbortSync slot answer stamp s
  | .errorFrame ch code primary dataPhase => Sys2Proof.Machine.execErrorFrame ch code primary dataPhase s
  | .integration ch => Sys2Proof.Machine.execIntegration ch s

end Sys2Proof.Machine
end

