-- ==== Sys2Proof/Safety.lean ====
section
/-!
DEFINITION. What counts as a sound state of the machine, and the conditions under which a host's access is performed, in the terms the
statements use.
-/
namespace Sys2Proof.Machine

/-- The Authority Unit is VACANT, HELD or in OVERLAP (R245): an old holder stands only beside a new one, which is the other plane. -/
def AuthUnit.sound (u : AuthUnit) : Prop := ∀ i, u.old = some i → u.holder = some i.other

/-- What every step keeps. -/
def State.Inv (s : State) : Prop := s.fs.au.sound

/-- The canonical form of an addressed memory: a plane's Basins, and its Tarn pages. -/
def Memory.wf (p : Plane) : Bool :=
  Tab.wf (fun _ => (0 : BitVec 64)) p.mem.words && Tab.wf (fun _ => PageVal.zero) p.tarn.sram

/-- What a Basin's word reads as (R398). (DESIGN CHOICE, unsafe: assumption 49.) -/
def Plane.word (p : Plane) (b w : Nat) : BitVec 64 := Tab.get (fun _ => 0) p.mem.words (basinKey b w)

/-- A running plane performs a write of `data` at a byte address over its HRP: the Shore check permits it (R302, R303). -/
abbrev State.writes (s : State) (i : PlaneId) (tag : Tag) (be : BitVec 4) (a : Nat) (data : Word) : Prop :=
  (s.plane i).phase = .ready ∧ s.forbids i 0 tag true (beMask be) data a = 0

/-- A running plane performs a read over its HRP. -/
abbrev State.reads (s : State) (i : PlaneId) (tag : Tag) (a : Nat) : Prop :=
  (s.plane i).phase = .ready ∧ s.forbids i 0 tag false 0xFFFFFFFF#32 0 a = 0

/-- Both planes run. -/
abbrev State.bothRun (s : State) : Prop := s.a.phase = .ready ∧ s.b.phase = .ready

/-- A plane has no flag of FAULT.PLANE_FLT set (R434). -/
abbrev Plane.healthy (p : Plane) : Prop := p.rd Reg.FAULT_PLANE_FLT = 0

end Sys2Proof.Machine
end

