-- ==== Sys2Proof/Certificates/Slice0/Obligations.lean ====
section
/-!
DEFINITION. The statements for the provers: one proposition per obligation, with the few words they share.
-/
open Sys2Proof Sys2Proof.Machine

/-- The applied word at an address once queued writes have applied in their order (R57). -/
def cfgAfter (g : Nat → Word) (ws : List QWrite) (a : Nat) : Word :=
  ws.foldl (fun w q => if q.addr = a then merge (q.mask &&& cfgMask a) w q.data else w) (g a)

/-- Two planes alike but for registers, the recorder, its pages in Tarn and the record of faults: what an event, a count, a record or a fault flag may
change. -/
def recordsOnly (p q : Plane) : Prop := q = { p with regs := q.regs, evr := q.evr, tarn := q.tarn, start := q.start }

/-- The module with its field side replaced and nothing but records changed in its planes. -/
def fieldBecomes (s t : State) (f : FieldSide) : Prop :=
  t = { s with a := t.a, b := t.b, fs := f } ∧ recordsOnly s.a t.a ∧ recordsOnly s.b t.b

/-- The field side with one port in another state, entered now, and nothing else changed; a new measured state sets the port's CHANGE bit in every
running plane, and no other register changes (R154). -/
def enteredPort (s t : State) (n : Nat) (x : PortSt) : Prop :=
  fieldBecomes s t (s.fs.setPort n { x with since := s.now }) ∧
  ∀ i, (∀ a, a ≠ Reg.PORTG_EVT (n / 8) → (t.plane i).rd a = (s.plane i).rd a) ∧
    ((s.plane i).phase = .ready → x.measured ≠ (s.fs.port n).measured → (t.plane i).rdF (Reg.PORTG_EVT (n / 8)) (24 + n % 8) (24 + n % 8) = 1)

/-- The field side with one port in FAULT of a cause, its power and grant gone, and nothing else changed; every running plane counts it and sets its
event (R153, R154). -/
def faultedPort (s t : State) (n cause : Nat) : Prop :=
  fieldBecomes s t (s.fs.setPort n { (s.fs.port n).off with st := .fault, fault := cause, since := s.now }) ∧
  ∀ i, (s.plane i).phase = .ready →
    (t.plane i).rdF (Reg.PORTG_CNT (n / 8) (n % 8)) 7 0 = satInc 255 ((s.plane i).rdF (Reg.PORTG_CNT (n / 8) (n % 8)) 7 0) ∧
    (t.plane i).rdF (Reg.PORTG_EVT (n / 8)) (8 + n % 8) (8 + n % 8) = 1

/-- What a classified port becomes with an assigned power `w` in mW (R153, R159): one that still holds a grant of at least as much powers up on it, or in
ride-through waits with it; any other waits for a grant. -/
def classifiedPort (s : State) (x : PortSt) (w : Nat) : PortSt :=
  if x.held = true ∧ w ≤ x.alloc then
    if s.fs.power.ride then { x with st := .waitBudget, alloc := w, grantNo := some s.now } else { x with st := .powerUp, alloc := w, held := false }
  else { x with st := .waitBudget, alloc := 0, held := false, grantNo := none }

/-- The blocks of a built launch go out on the link that its source is booked on, one for each part, and each arrives at the field side. -/
def blocksSent (s t : State) (i : PlaneId) (src : LaunchSrc) (b : Built) : Prop :=
  ∃ link tries, (s.plane i).weir.linkOf src b.tick = some (link, tries) ∧
    (t.plane i).weir.tx.length = (s.plane i).weir.tx.length + b.parts.length ∧ t.fs.due.length = s.fs.due.length + b.parts.length ∧
    ∀ c ∈ (t.plane i).weir.tx, c ∈ (s.plane i).weir.tx ∨ (c.link = link ∧ c.tries = tries ∧ c.src = src)

/-- The sync link has gone down (R241): each running plane that had it up raises WARN.SYNC_DOWN, counts it and has it down; where both planes run, a
standby is out of step and in RESYNC; the field side and a plane that does not run do not change. -/
def syncDropped (s t : State) : Prop :=
  t.fs = s.fs ∧ t.now = s.now ∧ ∀ j, ((s.plane j).phase ≠ .ready → t.plane j = s.plane j) ∧ ((s.plane j).phase = .ready → (t.plane j).red.syncUp = false ∧
    (t.plane j).red.role = (if (s.plane j).red.role = .standby ∧ s.bothRun then .resync else (s.plane j).red.role) ∧
    (t.plane j).weir.slots = (s.plane j).weir.slots ∧ (t.plane j).applied = (s.plane j).applied ∧
    ((s.plane j).red.syncUp = true → (t.plane j).rdF Reg.FAULT_WARN 5 5 = 1 ∧ (t.plane j).rdF Reg.RED_EVT 13 13 = 1 ∧
      (t.plane j).rdF Reg.RED_SYNC_ERR_CNT 15 0 = satInc 65535 ((s.plane j).rdF Reg.RED_SYNC_ERR_CNT 15 0)))

/-- A LEASE block has been acknowledged: the planes keep everything but the copies of it that they hold, and what its report and its effect on the field
side need. -/
def planesKept (s t : State) : Prop :=
  t.now = s.now ∧ t.fs.ports = s.fs.ports ∧ ∀ j, (t.plane j).red = (s.plane j).red ∧ (t.plane j).applied = (s.plane j).applied ∧
    (t.plane j).weir.slots = (s.plane j).weir.slots ∧ (t.plane j).scan = (s.plane j).scan

/-- The Authority Unit reports an event of now to both planes, with the holder as it then stands (R247). -/
def leaseReported (t : State) (event : Nat) : Prop :=
  ∃ r, (t.now + 1, Instr.leaseReport r t.now) ∈ t.fs.due ∧ ofLe (slice r 1 1) = event ∧ ofLe (slice r 2 1) = t.fs.au.holderCode

/-- A configuration write of words on the active plane over its HRP (R55, R57 to R59): where the queue has room it waits in the queue, with HOLD clear as a
group of its own, released in the half-cycle under way, and with HOLD set in the group that the path gathers; where it has none it is dropped and
recorded, and spoils the held group. Nothing has been applied, and the other plane has not changed. -/
def configTaken (s t : State) (i : PlaneId) (ws : List (Nat × Word × Word)) : Prop :=
  let p := s.plane i
  let q := t.plane i
  let holding : Prop := p.rdF Reg.SYS_CFG_CTRL 0 0 = 1
  q.applied = p.applied ∧ t.plane i.other = s.plane i.other ∧
  (p.cfgQ.length + ws.length ≤ 1024 → ∃ id, q.cfgQ = p.cfgQ ++ ws.map (fun w => { addr := w.1, mask := w.2.1, data := w.2.2, grp := id }) ∧
    (¬ holding → id = p.freshGrp ∧ q.grps = p.grps ++ [{ id := id, rel := some (halfOf s.now) }]) ∧
    (holding → (∀ g, p.heldGroup 0 = some g → id = g.id ∧ q.grps = p.grps) ∧
      (p.heldGroup 0 = none → id = p.freshGrp ∧ q.grps = p.grps ++ [{ id := id, held := some 0 }]))) ∧
  (1024 < p.cfgQ.length + ws.length → q.cfgQ = p.cfgQ ∧ q.rdF Reg.SYS_CFG_STAT 1 1 = 1 ∧ q.rdF Reg.SYS_EVT 10 10 = 1 ∧
    (¬ holding → q.grps = p.grps) ∧ (holding → ∃ g ∈ q.grps, g.held = some 0 ∧ g.bad = true))

/-- A received frame is dropped with a cause (R270): it counts once in both planes' sets and sets its event in every running plane, goes nowhere, and teaches
and wakes nothing. -/
def droppedAs (s t : State) (n cause : Nat) : Prop :=
  (∀ i, Tab.get (fun _ => 0) t.fs.fab.counts (countKey i n cause) = satInc 0xFFFF (Tab.get (fun _ => 0) s.fs.fab.counts (countKey i n cause))) ∧
  t.fs.fab.sent = s.fs.fab.sent ∧ t.fs.fab.queues = s.fs.fab.queues ∧ t.fs.fab.fdb = s.fs.fab.fdb ∧ t.fs.ports = s.fs.ports ∧ t.fs.waking = s.fs.waking ∧
  ∀ i, (s.plane i).phase = .ready →
    (if n < 128 then (t.plane i).rdF Reg.SWF_EVT 8 8 else (t.plane i).rdF (Reg.UPL_EVT (n - 128)) 11 11) = 1

/-- When a received pause ends on a port or uplink, while one holds it. -/
def pauseOf (s : State) (n : Nat) : Option Nat :=
  if n < 128 then (Tab.get (fun _ => {}) s.fs.phy n : PhySt).pauseUntil else (s.fs.uplink (n - 128)).pauseUntil

/-- A channel whose error counts have become `tec` and `rec_` (R294), with its fault confinement: off the bus above 255 in TEC, error passive above 127 in either. Entering
bus-off starts a recovery where CFG.BO_AUTO says so, and every running plane shows it. -/
def countsTaken (s t : State) (ch : Nat) (c : CanChan) (tec rec_ : Nat) : Prop :=
  let fc := if c.fc = 2 ∨ 255 < tec then 2 else if 127 < tec ∨ 127 < rec_ then 1 else 0
  let x := t.fs.chan ch
  x.tec = tec ∧ x.rec_ = rec_ ∧ x.fc = fc ∧ x.recovering = (if fc = 2 ∧ c.fc ≠ 2 then bit (s.cfg (Reg.CAN_CFG ch)) 1 else c.recovering) ∧
  ∀ j, (s.plane j).phase = .ready → (fc = 2 → c.fc ≠ 2 → (t.plane j).rdF (Reg.CAN_EVT ch) 12 12 = 1) ∧
    (fc = 1 → c.fc = 0 → (t.plane j).rdF (Reg.CAN_EVT ch) 11 11 = 1)

/-- A step runs the command at the front of the queue, with the queue's rest. On an empty queue one tick passes, which is the model's choice
(assumption 1). -/
def Obligations.StepRunsFrontOfQueue : Prop :=
  ∀ (s : State) (c : Instr) (rest : List Instr),
    (s.pending = c :: rest → step s = exec c { s with pending := rest }) ∧ (s.pending = [] → step s = .next s.tick)

/-- Every command completes in every state, and leaves the queue to the step. Where the spec leaves it open, the model's choice: assumption
53. -/
def Obligations.EveryCommandAnswersAndKeepsQueue : Prop :=
  ∀ (c : Instr) (s : State), ∃ t, exec c s = .next t ∧ t.pending = s.pending

/-- What the spec gives for the module at power-on: the Authority Unit VACANT (R245), the MPE in ACQUIRE (R73), no cycle numbering (R86),
every slot FREE (R111), both planes OFFLINE (R239), the relay de-energised (R437), and the register image at its reset values. -/
def Obligations.ResetLeavesTheSpecsValues : Prop :=
  State.reset.pending = [] ∧ State.reset.fs.au.holder = none ∧ State.reset.fs.au.old = none ∧ State.reset.fs.relay = false ∧
  ∀ i, (State.reset.plane i).mpe.st = .acquire ∧ (State.reset.plane i).mpe.cyc = .none ∧ (State.reset.plane i).mpe.timeValid = false ∧
    (State.reset.plane i).red.role = .offline ∧ (∀ n, ((State.reset.plane i).slot n).st = .free) ∧
    (State.reset.plane i).scan.st = .empty ∧ (∀ l, ((State.reset.plane i).loop l).st = .off) ∧
    (∀ a, (State.reset.plane i).rd a = regDefault a) ∧ (∀ a, (State.reset.plane i).cfg a = regDefault a)

/-- The invariant and the canonical form of the addressed memories hold at reset. Where the spec leaves it open, the model's choice:
assumption 8. -/
def Obligations.ResetMeetsInvariant : Prop :=
  State.reset.Inv ∧ ∀ i, Memory.wf (State.reset.plane i) = true

/-- The Authority Unit stays VACANT, HELD or in OVERLAP (R245) through every step from every state in which it is one of them. -/
def Obligations.StepKeepsAuthoritySound : Prop :=
  ∀ s t : State, s.Inv → step s = .next t → t.Inv

/-- R40: an access to an unmapped page that the Shore check permits. A read returns 0 and a write changes nothing else; either counts in
UNMAP_CNT and sets EVT.UNMAPPED. Within a mapped page an offset that no chapter lists reads 0 and ignores writes, and is not counted. -/
def Obligations.UnmappedAccessesCountAndUnlistedOffsetsDoNot : Prop :=
  ∀ (s : State) (i : PlaneId) (path : Nat) (tag : Tag) (group : Bool) (be : BitVec 4) (a : Nat) (data : Word), (s.plane i).phase = .ready →
    let counted : State := s.upd i fun p => (p.bump Reg.SYS_UNMAP_CNT 15 0).evt Reg.SYS_EVT 8
    (mapped (a / 0x1000) = false →
      (s.forbids i path tag false 0xFFFFFFFF#32 0 a = 0 → s.readWord i path tag a = { st := counted, word := 0, ok := true }) ∧
      (s.forbids i path tag true (beMask be) data a = 0 → be ≠ 0 →
        s.writeWord i path tag group be a data = { st := counted, word := 0, ok := true })) ∧
    ((((blockOf (a / 0x1000)).isSome ∧ regAt a = none ∧ a % 0x1000 ≠ 0) ∨
        (0x140 ≤ a / 0x1000 ∧ isWindow (a / 0x1000) = true ∧ 10240 ≤ (a - 0x140000) % 0x3000)) →
      (s.forbids i path tag false 0xFFFFFFFF#32 0 a = 0 → s.readWord i path tag a = { st := s, word := 0, ok := true }) ∧
      (s.forbids i path tag true (beMask be) data a = 0 → s.writeWord i path tag group be a data = { st := s, word := 0, ok := true }))

/-- R55, R57, R58, R59: a configuration write on the active plane waits in the queue: with HOLD clear as a released group of its own, with
HOLD set in the group that the path gathers, and with no room not at all. Queued, the image reads as written at once; the applied
configuration is unchanged. Where the spec leaves it open, the model's choice: assumption 21. It concludes that exec answers a next state
for registerWrite. -/
def Obligations.ConfigWriteIsReleasedAsItsOwnGroup : Prop :=
  ∀ (s : State) (i : PlaneId) (tag : Tag) (be : BitVec 4) (w : BitVec 20) (data : Word) (r : RegAt),
    let a := byteAddr w
    let p := s.plane i
    let m := beMask be &&& w32 (r.row.rw ||| r.row.rws ||| r.row.wo)
    s.writes i tag be a data → p.isActive = true → regAt a = some r → mirroredPage (a / 0x1000) = true → r.row.wide = false → r.row.perPath = false → a ≠ Reg.LOOP_L_CTRL →
    p.entryPlace 0 a = none → a % 0x1000 ≠ 0x1C → beMask be &&& data &&& w32 r.row.w1c = 0 → m ≠ 0 →
    p.fieldMask a r.row.rws m data = { mask := m, data := data, err := false } →
    ∃ t, exec (.registerWrite i tag be w data) s = .next t ∧
      configTaken s t i [(a, m, data)] ∧
      (p.cfgQ.length < 1024 → cfgMask a ≠ 0 → (t.plane i).rd a = merge (cfgMask a) (p.rd a) (merge (m &&& cfgMask a) (p.image a) data))

/-- R56, R54: a configuration write that reaches a plane which is not active is ignored; it counts in the page's ERR_CNT and sets
EVT.STANDBY_WRITE. A word of a window entry below its highest waits in the path's buffer of the window, beside the words of that entry
that wait already. A buffer of another entry of the window is discarded, which counts in the window's page. The path's other buffers stay,
and nothing else changes. Where the spec leaves it open, the model's choice: assumption 23. It concludes that exec answers a next state
for registerWrite, windowEntryWrite. -/
def Obligations.StandbyWritesAndEntryBuffers : Prop :=
  (∀ (s : State) (i : PlaneId) (tag : Tag) (be : BitVec 4) (w : BitVec 20) (data : Word),
    let a := byteAddr w
    let p := s.plane i
    s.writes i tag be a data → p.isActive = false → be ≠ 0 →
    (∀ r, regAt a = some r → mirroredPage (a / 0x1000) = true → r.row.wide = false → r.row.perPath = false →
      p.entryPlace 0 a = none → a % 0x1000 ≠ 0x1C → beMask be &&& data &&& w32 r.row.w1c = 0 →
      beMask be &&& w32 (r.row.rw ||| r.row.rws ||| r.row.wo) ≠ 0 →
      exec (.registerWrite i tag be w data) s = .next (s.upd i fun p => (p.err (a / 0x1000)).evt Reg.SYS_EVT 11)) ∧
    (∀ e, p.entryPlace 0 a = some e → e.word = e.last →
      exec (.windowEntryWrite i tag be w data) s = .next (s.upd i fun p => (p.err e.page).evt Reg.SYS_EVT 11))) ∧
  (∀ (s : State) (i : PlaneId) (tag : Tag) (be : BitVec 4) (w : BitVec 20) (data : Word) (e : EntryPlace),
    let a := byteAddr w
    let bufs := ((s.plane i).path 0).bufs
    let waits (words : List (Nat × Word × Word)) (p : Plane) : Plane := p.updPath 0 fun x =>
      { x with bufs := (e.win, { base := e.base, words := words ++ [(e.word, beMask be, data)] }) :: bufs.filter fun b => b.1 != e.win }
    s.writes i tag be a data → be ≠ 0 → (s.plane i).entryPlace 0 a = some e → e.word ≠ e.last →
    (bufs.find? (fun b => b.1 == e.win) = none → exec (.windowEntryWrite i tag be w data) s = .next (s.upd i (waits []))) ∧
    (∀ n x, bufs.find? (fun b => b.1 == e.win) = some (n, x) →
      (x.base = e.base → exec (.windowEntryWrite i tag be w data) s = .next (s.upd i (waits x.words))) ∧
      (x.base ≠ e.base → exec (.windowEntryWrite i tag be w data) s = .next (s.upd i fun p => waits [] (p.err e.page)))))

/-- R49, R50, R384, R49: a permitted read over the HRP answers with the word its register shows. A read of the low half of a wide register
latches the high half as it stands, a read of SUBSEC latches TIME, DATE and SECS, and a word latched on the path is answered once in place
of the register's. A read of a read-to-clear count leaves 0 in the bits of the count; in a register kept for the plane alone nothing of
the other plane or the field side changes. Writing the high word of a wide register writes both halves, with the low word that the path
holds for it, and uses that up. The wide registers that can be written are RED.DRILL_AT, which a write changes at once; TARN.PWD, kept on
the path; and SCAN.CHG_k, whose two words are one group on the active plane and which a plane that is not active ignores and counts. It
concludes that exec answers a next state for rcRead, wideLowRead, wideHighWrite, subsecRead. -/
def Obligations.WideRegistersLatchHoldAndClear : Prop :=
  (∀ (s : State) (i : PlaneId) (tag : Tag) (w : BitVec 20) (r : RegAt),
    let a := byteAddr w
    let shows (t : State) (l : List Word) : Prop := ((t.plane i).path 0).answer = l
    s.reads i tag a → regAt a = some r →
    (∀ v, (s.plane i).latched 0 a = some v →
      ∃ t, exec (.wideLowRead i tag w) s = .next t ∧ exec (.rcRead i tag w) s = .next t ∧ shows t [v] ∧ (t.plane i).latched 0 a = none) ∧
    ((s.plane i).latched 0 a = none → r.row.wide = true → r.high = false →
      ∃ t, exec (.wideLowRead i tag w) s = .next t ∧ shows t [s.view i 0 tag.toNat a] ∧
        (t.plane i).latched 0 (a + 4) = some (s.view i 0 tag.toNat (a + 4))) ∧
    ((s.plane i).latched 0 a = none → r.row.rc ≠ 0 → latches a r = [] →
      exec (.rcRead i tag w) s = .next (((s.readEffects i 0 tag a).rcClear i 0 a r.row.rc).upd i fun p =>
        p.updPath 0 fun x => { x with answer := [s.view i 0 tag.toNat a] }) ∧
      (a / 0x1000 ≠ 0x4C → (a / 0x1000 < 0x30 ∨ 0x34 < a / 0x1000) → ∀ t, exec (.rcRead i tag w) s = .next t →
        (t.plane i).rd a = (s.plane i).rd a &&& ~~~w32 r.row.rc ∧ t.plane i.other = s.plane i.other ∧ t.fs = s.fs)) ∧
    ((s.plane i).latched 0 a = none → a = Reg.RTC_SUBSEC →
      ∃ t, exec (.subsecRead i tag) s = .next t ∧ shows t [s.view i 0 tag.toNat Reg.RTC_SUBSEC] ∧
        ∀ b ∈ [Reg.RTC_TIME, Reg.RTC_DATE, Reg.RTC_SECS], (t.plane i).latched 0 b = some (s.view i 0 tag.toNat b))) ∧
  (∀ (s : State) (i : PlaneId) (tag : Tag) (be : BitVec 4) (data : Word), be ≠ 0 →
    let p := s.plane i
    let at_ (a : Nat) : BitVec 20 := BitVec.ofNat 20 ((a + 4) / 4)
    (s.writes i tag be (Reg.RED_DRILL_AT + 4) data →
      ∃ t, exec (.wideHighWrite i tag be (at_ Reg.RED_DRILL_AT) data) s = .next t ∧
        (t.plane i).rd Reg.RED_DRILL_AT = merge (p.heldLow 0 Reg.RED_DRILL_AT).1 (p.rd Reg.RED_DRILL_AT) (p.heldLow 0 Reg.RED_DRILL_AT).2 ∧
        (t.plane i).rd (Reg.RED_DRILL_AT + 4) = merge (beMask be) (p.rd (Reg.RED_DRILL_AT + 4)) data ∧
        ((t.plane i).heldLow 0 Reg.RED_DRILL_AT).1 = 0 ∧ t.plane i.other = s.plane i.other ∧ t.fs = s.fs) ∧
    (s.writes i tag be (Reg.TARN_PWD + 4) data →
      ∃ t, exec (.wideHighWrite i tag be (at_ Reg.TARN_PWD) data) s = .next t ∧
        (t.plane i).prd 0 Reg.TARN_PWD = merge (p.heldLow 0 Reg.TARN_PWD).1 (p.prd 0 Reg.TARN_PWD) (p.heldLow 0 Reg.TARN_PWD).2 ∧
        (t.plane i).prd 0 (Reg.TARN_PWD + 4) = merge (beMask be) (p.prd 0 (Reg.TARN_PWD + 4)) data ∧
        ((t.plane i).heldLow 0 Reg.TARN_PWD).1 = 0 ∧ (t.plane i).regs = p.regs ∧ t.plane i.other = s.plane i.other ∧ t.fs = s.fs) ∧
    (∀ k < 64, let a := Reg.SCAN_CHG k
      s.writes i tag be (a + 4) data →
      (p.isActive = true → ∃ t, exec (.wideHighWrite i tag be (at_ a) data) s = .next t ∧
        configTaken s t i ((if (p.heldLow 0 a).1 = 0 then [] else [(a, p.heldLow 0 a)]) ++ [(a + 4, beMask be, data)]) ∧
        ((t.plane i).heldLow 0 a).1 = 0) ∧
      (p.isActive = false → exec (.wideHighWrite i tag be (at_ a) data) s =
        .next (s.upd i fun p => (p.err Reg.SCAN_PAGE).evt Reg.SYS_EVT 11))))

/-- R58, R59: HOLD set gathers the writes that follow. Clearing it releases the held group in the half-cycle under way, or drops it where a
write of it found no room or it holds no write; DISCARD drops the held group with its writes. Both leave HOLD clear, with nothing held
they do that alone, and the applied configuration and the other plane do not change. Where the spec leaves it open, the model's choice:
assumptions 23, 24. It concludes that exec answers a next state for hold, holdClear, discard. -/
def Obligations.HoldReleasesAndDiscardDrops : Prop :=
  ∀ (s : State) (i : PlaneId) (tag : Tag),
    let p := s.plane i
    let kept (t : State) : Prop := (t.plane i).rdF Reg.SYS_CFG_CTRL 0 0 = 0 ∧ (t.plane i).applied = p.applied ∧ t.plane i.other = s.plane i.other
    let dropped (t : State) (g : CfgGroup) : Prop :=
      (t.plane i).cfgQ = (p.cfgQ.filter fun q => q.grp != g.id) ∧ (t.plane i).grps = (p.grps.filter fun x => x.id != g.id)
    (s.writes i tag 0x1#4 Reg.SYS_CFG_CTRL 1 →
      exec (.hold i tag) s = .next (s.upd i fun p => p.wrF Reg.SYS_CFG_CTRL 0 0 1)) ∧
    (s.writes i tag 0x1#4 Reg.SYS_CFG_CTRL 0 →
      ∃ t, exec (.holdClear i tag) s = .next t ∧ kept t ∧
        (p.heldGroup 0 = none → (t.plane i).cfgQ = p.cfgQ ∧ (t.plane i).grps = p.grps) ∧
        ∀ g, p.heldGroup 0 = some g → p.grps.find? (fun x => x.id == g.id) = some g →
          if g.bad = true ∨ (p.cfgQ.any fun q => q.grp == g.id) = false then dropped t g
          else (t.plane i).grps = p.grps.map (fun x => if x.id = g.id then { x with held := none, rel := some (halfOf s.now) } else x) ∧
            (t.plane i).cfgQ.map QWrite.addr = p.cfgQ.map QWrite.addr ∧
            ((∀ q ∈ p.cfgQ, q.grp = g.id → q.addr < 0x460000) → (t.plane i).cfgQ = p.cfgQ)) ∧
    (s.writes i tag 0x1#4 Reg.SYS_CFG_CTRL 2 →
      ∃ t, exec (.discard i tag) s = .next t ∧ kept t ∧
        (p.heldGroup 0 = none → (t.plane i).cfgQ = p.cfgQ ∧ (t.plane i).grps = p.grps) ∧
        ∀ g, p.heldGroup 0 = some g → dropped t g)

/-- R44 to R46, R55, R56: a write of SEAL with the page's ID sets OWNER.SEALED: on a local page at once and with no other change, on a
mirrored page through the queue of the active plane, where the image reads it as written. Any other value, and a write of part of the
word, counts in ERR_CNT alone. On the page that has CTRL.SOFT_RST, PTP, the reset is queued as a configuration write with EN as it stands;
on a page without it the request writes EN as it stands, or nothing where EN is read-only. A plane that is not active ignores and counts
either on a mirrored page. Where the spec leaves it open, the model's choice: assumption 24. It concludes that exec answers a next state
for seal, softRst. -/
def Obligations.SealAndSoftResetWrites : Prop :=
  ∀ (s : State) (i : PlaneId) (tag : Tag) (be : BitVec 4) (page : BitVec 10) (data : Word),
    let p := s.plane i
    let own := page.toNat * 0x1000 + 0x14
    let ctrl := page.toNat * 0x1000 + 4
    let word : Word := (p.rd ctrl &&& 1) ||| 2
    let mine : Prop := mirroredPage page.toNat = true → p.isActive = true
    let ignored : State := s.upd i fun p => (p.err page.toNat).evt Reg.SYS_EVT 11
    (s.writes i tag be (page.toNat * 0x1000 + 0x1C) data → (blockOf page.toNat).isSome → be ≠ 0 →
      (mine → (be ≠ 0xF#4 ∨ data ≠ idWord page.toNat) → exec (.seal i tag be page data) s = .next (s.upd i fun p => p.err page.toNat)) ∧
      (be = 0xF#4 → data = idWord page.toNat → mirroredPage page.toNat = false →
        exec (.seal i tag be page data) s = .next (s.upd i fun p => p.wrF own 31 31 1)) ∧
      (be = 0xF#4 → data = idWord page.toNat → mirroredPage page.toNat = true → p.isActive = true → ∃ t, exec (.seal i tag be page data) s = .next t ∧
        configTaken s t i [(own, 0x80000000#32, 0x80000000#32)] ∧ (p.cfgQ.length < 1024 → (t.plane i).rdF own 31 31 = 1)) ∧
      (¬ mine → exec (.seal i tag be page data) s = .next ignored)) ∧
    (∀ r, s.writes i tag 0x1#4 ctrl word → (blockOf page.toNat).isSome → regAt ctrl = some r →
      ((r.row.rw ||| r.row.rws ||| r.row.wo) &&& 0xFF = 0 → exec (.softRst i tag page) s = .next s) ∧
      ((r.row.rw ||| r.row.rws ||| r.row.wo) &&& 0xFF ≠ 0 → p.isActive = true → ∃ t, exec (.softRst i tag page) s = .next t ∧
        configTaken s t i [(ctrl, if page = 0x05#10 then 3#32 else 1#32, word)] ∧ (t.plane i).mpe = p.mpe) ∧
      ((r.row.rw ||| r.row.rws ||| r.row.wo) &&& 0xFF ≠ 0 → p.isActive = false → exec (.softRst i tag page) s = .next ignored))

/-- R57, R60: at the start of half-cycle h + 2 a plane applies the groups released in half-cycle h: their writes enter the applied
configuration in the order of the queue, the groups leave it, CFG_EPOCH counts them and CFG_AT takes the stamp. A standby in step applies
those that it has acknowledged, and keeps step where all were. Nothing applies at another tick. A released group that crosses the sync
link to a plane in step is acknowledged, and waits there as it does here. A soft reset in a group also returns fields of the PTP page
(R44), which the clause on the applied words leaves out. Where the spec leaves it open, the model's choice: assumptions 10, 21. It
concludes that exec answers a next state for configGroupApply, configGroupSync. -/
def Obligations.GroupsApplyTwoBoundariesAfterRelease : Prop :=
  ∀ (s : State) (i : PlaneId),
    let p := s.plane i
    let due := p.dueGroups (halfOf s.now)
    (s.now % 2048 ≠ 0 → exec .configGroupApply s = .next s) ∧
    (s.now % 2048 = 0 → p.phase = .ready →
      ∃ t, exec .configGroupApply s = .next t ∧
        ∀ gs, (if p.isActive = true ∨ (s.plane i.other).isActive = false then gs = due
            else gs = due.filter CfgGroup.acked ∧ ∀ g ∈ (s.plane i.other).dueGroups (halfOf s.now), g.acked = true) → gs ≠ [] →
          let ids := gs.map CfgGroup.id
          let ws := p.cfgQ.filter fun q => ids.contains q.grp
          ((ws.any fun q => q.addr == Reg.PTP_CTRL && bit (q.mask &&& q.data) 1) = false → ∀ a, (t.plane i).cfg a = cfgAfter p.cfg ws a) ∧
          (t.plane i).grps.all (fun g => !ids.contains g.id) = true ∧ (t.plane i).cfgQ.all (fun q => !ids.contains q.grp) = true ∧
          (t.plane i).rd Reg.SYS_CFG_EPOCH = p.rd Reg.SYS_CFG_EPOCH + BitVec.ofNat 32 gs.length ∧
          (t.plane i).rd64 Reg.SYS_CFG_AT = s.now % 2 ^ 64 ∧ (t.plane i).rdF Reg.SYS_EVT 9 9 = 1) ∧
    (∀ (id : Nat) (g : CfgGroup), s.active? = some i → p.grps.find? (fun g => g.id == id && g.rel.isSome && !g.acked) = some g →
      p.red.syncUp = true → (s.plane i.other).red.syncUp = true → (s.plane i.other).red.role = .standby →
      ∃ t, exec (.configGroupSync id) s = .next t ∧
        (t.plane i).grps = p.grps.map (fun x => if x.id = id then { x with acked := true } else x) ∧
        (t.plane i.other).cfgQ = (s.plane i.other).cfgQ ++ p.cfgQ.filter (fun q => q.grp == id) ∧
        (t.plane i.other).grps = (s.plane i.other).grps ++ [{ g with acked := true }] ∧ t.fs = s.fs)

/-- R65: while a plane runs, IRQ# is driven low exactly while SYS.CTRL.IRQ_EN is 1 and some bit of EVT_SUM_0 to EVT_SUM_2 is 1; bit n of
EVT_SUM_k shows page 32 k + n. -/
def Obligations.IrqFollowsTheSummaryBits : Prop :=
  ∀ p : Plane, p.phase = .ready →
    (p.irq = true ↔ bit (p.rd Reg.SYS_CTRL) 8 = true ∧ ∃ k < 3, ∃ n < 32, bit (p.evtSumAll k) n = true) ∧
    (∀ k < 3, ∀ n < 32, bit (p.evtSumAll k) n = p.pageEvent (32 * k + n))

/-- R52: at a half-cycle boundary, with both planes running and the sync link up, each plane holds a copy of the other's SYS page; while the
link is down, or a plane does not run, neither holds one. Nothing is copied at another tick. It concludes that exec answers a next state
for sysAliasUpdate. -/
def Obligations.AliasesCopyTheOtherSysPage : Prop :=
  ∀ s : State,
    let linked : Prop := s.bothRun ∧ s.a.red.syncUp = true ∧ s.b.red.syncUp = true
    (s.now % 2048 = 0 → linked →
      exec .sysAliasUpdate s = .next { s with a := { s.a with alias_ := some (s.sysCopy .b) }, b := { s.b with alias_ := some (s.sysCopy .a) } }) ∧
    (s.now % 2048 = 0 → ¬ linked →
      exec .sysAliasUpdate s = .next { s with a := { s.a with alias_ := none }, b := { s.b with alias_ := none } }) ∧
    (s.now % 2048 ≠ 0 → exec .sysAliasUpdate s = .next s)

/-- R302, R309, R422: an access that the Shore check forbids reads 0 or writes nothing, and is recorded as a violation of its plane; a plane
that has not recalled its store answers no access at all. Where the spec leaves it open, the model's choice: assumption 20. -/
def Obligations.ForbiddenAccessesChangeOnlyViolationRecords : Prop :=
  ∀ (s : State) (i : PlaneId) (path : Nat) (tag : Tag) (group : Bool) (be : BitVec 4) (a : Nat) (data : Word),
    ((s.plane i).phase = .ready →
      (s.forbids i path tag false 0xFFFFFFFF#32 0 a ≠ 0 → s.readWord i path tag a =
        { st := s.upd i fun p => p.violate path tag false (s.forbids i path tag false 0xFFFFFFFF#32 0 a) a s.now, word := 0, ok := false }) ∧
      (s.forbids i path tag true (beMask be) data a ≠ 0 → s.writeWord i path tag group be a data =
        { st := s.upd i fun p => p.violate path tag true (s.forbids i path tag true (beMask be) data a) a s.now, word := 0, ok := false })) ∧
    ((s.plane i).phase = .starting ∨ (s.plane i).phase = .unpowered →
      s.readWord i path tag a = { st := s, word := 0, ok := true } ∧ s.writeWord i path tag group be a data = { st := s, word := 0, ok := true })

/-- A session's requests (R66, R67). A request on a session that is not open has no effect. Each other one is answered with its OP, ADDR and
SEQ: BUSY where one is outstanding, BAD_OP where its OP or its WORDS is not one of R66, BAD_ALIGN where ADDR is misaligned, TOO_LONG where
a READ or WRITE has no words, more than 256 or passes the end of the register space; none of these performs a word. A READ answers with
its words in rising address order and the number refused; a WRITE performs its words on the session's path with its tag, answers with the
number refused, and leaves its path gathering no group. Where the spec leaves it open, the model's choice: assumptions 20, 25. It
concludes that exec answers a next state for moarnoRead, moarnoWrite. -/
def Obligations.SessionRequestsPerformTheirWords : Prop :=
  ∀ (s : State) (i : PlaneId) (k : Fin 8) (words addr seq : Nat) (data : List Word) (group : Bool) (op : BitVec 8),
    let x := (s.plane i).session k.val
    let path := k.val + 1
    let ans (o st viol : Nat) (d : List Word) (t : State) : State := t.upd i fun p => p.setSession k.val
      { p.session k.val with answer := some { op := o, status := st, words := words, addr := addr, seq := seq, viol := viol, data := d } }
    let read := exec (.moarnoRead i k { op := op, words := words } addr seq) s
    let write := exec (.moarnoWrite i k group words addr seq data) s
    let submit := exec (.moarnoCmdSubmit i k words addr seq data) s
    let wait := exec (.moarnoEvtWait i k words addr seq data) s
    let idle : Prop := x.opened = true ∧ x.wait = none ∧ x.submitting = none
    let wrong : Prop := words = 0 ∨ 256 < words ∨ 0x400000 < addr + 4 * words
    (x.opened = false → read = .next s ∧ write = .next s ∧ submit = .next s ∧ wait = .next s) ∧
    (x.opened = true → x.wait.isSome ∨ x.submitting.isSome →
      read = .next (ans op.toNat 4 0 [] s) ∧ write = .next (ans 2 4 0 [] s) ∧ submit = .next (ans 3 4 0 [] s) ∧ wait = .next (ans 4 4 0 [] s)) ∧
    (idle → (op ≠ 1 → read = .next (ans op.toNat 1 0 [] s)) ∧ (words ≠ 8 → submit = .next (ans 3 1 0 [] s)) ∧
      (words ≠ 4 → wait = .next (ans 4 1 0 [] s))) ∧
    (idle → addr % 4 ≠ 0 → (op = 1 → read = .next (ans 1 2 0 [] s)) ∧ write = .next (ans 2 2 0 [] s) ∧
      (words = 8 → submit = .next (ans 3 2 0 [] s)) ∧ (words = 4 → wait = .next (ans 4 2 0 [] s))) ∧
    (idle → addr % 4 = 0 → wrong → (op = 1 → read = .next (ans 1 3 0 [] s)) ∧ write = .next (ans 2 3 0 [] s)) ∧
    (idle → addr % 4 = 0 → ¬ wrong →
      (op = 1 → let r := s.readWords i path x.tag addr words
        read = .next (ans 1 0 r.2.2 r.2.1 r.1) ∧ r.2.1.length = words ∧ r.2.2 ≤ words) ∧
      (let ws := (List.range words).map fun n => data.getD n 0
       ∃ t, write = .next t ∧
        ((t.plane i).session k.val).answer = some {
          op := 2, status := 0, words := words, addr := addr, seq := seq, viol := (s.writeWords i path x.tag group addr ws).2, data := [] } ∧
        ((∀ g ∈ (s.plane i).grps, g.held ≠ some path) → ∀ g ∈ (t.plane i).grps, g.held ≠ some path)))

/-- R66, R67, R96, R316, R341, R342, R365: an EVT_WAIT keeps its masks and its time-out, of at most 60,000 ms, and is answered with the three
summary words once a masked bit is set or the time-out has passed, not before. A CMD_SUBMIT that the Shore check permits waits for Weir's
decision with its path's RESULT PENDING on the active plane, and is answered REFUSED_STANDBY at once on another; while RESULT is PENDING
it is answered with that and counted; words that the check forbids are counted in VIOL and nothing is submitted. An authenticated
handshake opens a session with its tag and starts its path afresh, with EVT bit 9 of ACCESS; one that does not authenticate counts in
HS_FAIL_CNT and opens nothing; on a session already open, or in a plane that does not run, it has no effect. Closing a session ends its
tag, its unlocks and its waiting requests. Where the spec leaves it open, the model's choice: assumption 25. It concludes that exec
answers a next state for moarnoCmdSubmit, moarnoEvtWait, evtWaitAnswer, moarnoSessionOpen, moarnoSessionClose. -/
def Obligations.SessionsOpenWaitSubmitAndClose : Prop :=
  (∀ (s : State) (i : PlaneId) (k : Fin 8) (addr seq : Nat) (data : List Word),
    let p := s.plane i
    let x := p.session k.val
    let record := wordBytes ((List.range 8).map fun n => data.getD n 0)
    let pending : Prop := p.prdF (k.val + 1) Reg.CMD_RESULT 7 0 = 1
    let forbidden (n : Nat) : Bool := s.forbids i (k.val + 1) x.tag true 0xFFFFFFFF#32 (data.getD n 0) (Reg.CMD_SUBMIT n) != 0
    let answered (t : State) (viol : Nat) (d : List Word) : Prop := ((t.plane i).session k.val).answer =
      some { op := 3, status := 0, words := 8, addr := addr, seq := seq, viol := viol, data := d }
    (x.opened = true → x.wait = none → x.submitting = none → addr % 4 = 0 →
      exec (.moarnoEvtWait i k 4 addr seq data) s = .next (s.upd i fun p => p.setSession k.val { p.session k.val with
        wait := some { masks := [data.getD 0 0, data.getD 1 0, data.getD 2 0],
                       until_ := p.tt s.now + min 60000 (data.getD 3 0).toNat * 1000000, seq := seq, addr := addr } })) ∧
    (∀ w, x.wait = some w → p.waitOver k.val s.now = true →
      exec (.evtWaitAnswer i k) s = .next (s.upd i fun p => p.setSession k.val { p.session k.val with
        wait := none,
        answer := some { op := 4, status := 0, words := 4, addr := w.addr, seq := w.seq, viol := 0, data := p.sums x.tag.toNat } })) ∧
    (p.waitOver k.val s.now = false → exec (.evtWaitAnswer i k) s = .next s) ∧
    (x.opened = true → x.wait = none → x.submitting = none → addr % 4 = 0 →
      ∃ t, exec (.moarnoCmdSubmit i k 8 addr seq data) s = .next t ∧ t.plane i.other = s.plane i.other ∧ t.fs = s.fs ∧
        ((∀ n < 8, forbidden n = false) → ¬ pending → p.isActive = true →
          ((t.plane i).session k.val).submitting = some (seq, addr) ∧ (t.plane i).prdF (k.val + 1) Reg.CMD_RESULT 7 0 = 1 ∧
          (t.plane i).weir.subs = p.weir.subs ++ [{ path := k.val + 1, tag := x.tag, record := record }]) ∧
        ((∀ n < 8, forbidden n = false) → ¬ pending → p.isActive = false →
          answered t 0 [resultWord 0x23 (ofLe (slice record 2 1)) 0x21] ∧ ((t.plane i).session k.val).submitting = none ∧
          (t.plane i).weir.subs = p.weir.subs) ∧
        ((∀ n < 8, forbidden n = false) → pending →
          answered t 0 [p.prd (k.val + 1) Reg.CMD_RESULT] ∧ (t.plane i).weir.subs = p.weir.subs) ∧
        (∀ n < 8, forbidden n = true →
          answered t ((List.range 8).filter forbidden).length [0] ∧ (t.plane i).weir.subs = p.weir.subs))) ∧
  (∀ (s : State) (i : PlaneId) (k : Fin 8) (tag : Tag) (anchor : Fin 256) (valid : Bool),
    let p := s.plane i
    (p.running = false ∨ (p.session k.val).opened = true → exec (.moarnoSessionOpen i k tag anchor valid) s = .next s) ∧
    (p.running = true → (p.session k.val).opened = false → valid = true → p.authenticates tag anchor.val = true →
      ∃ t, exec (.moarnoSessionOpen i k tag anchor valid) s = .next t ∧
        ((t.plane i).session k.val).opened = true ∧ ((t.plane i).session k.val).tag = tag ∧ (t.plane i).path (k.val + 1) = {} ∧
        (t.plane i).rdF (Reg.ACCESS_SESS k.val) 8 8 = 1 ∧ (t.plane i).rdF Reg.ACCESS_EVT 9 9 = 1 ∧ t.plane i.other = s.plane i.other ∧ t.fs = s.fs) ∧
    (p.running = true → (p.session k.val).opened = false → valid = false ∨ p.authenticates tag anchor.val = false →
      exec (.moarnoSessionOpen i k tag anchor valid) s = .next (s.upd i fun p => (p.bump Reg.CRYPTO_HS_FAIL_CNT 15 0).evt Reg.CRYPTO_EVT 9)) ∧
    ((p.session k.val).opened = false → exec (.moarnoSessionClose i k) s = .next s) ∧
    ((p.session k.val).opened = true →
      ∃ t, exec (.moarnoSessionClose i k) s = .next t ∧ (t.plane i).session k.val = {} ∧ (t.plane i).path (k.val + 1) = {} ∧
        (t.plane i).rd (Reg.ACCESS_SESS k.val) = 0 ∧ t.plane i.other = s.plane i.other ∧ t.fs = s.fs))

/-- R68 to R70, R75, R84, R87, R90: at tick 0 of a cycle not yet begun, every powered plane advances its true time by the P(c) of the cycle
that ends, records the cycle with its PTP time and makes the trim's move; all powered planes take up the same P(c), which is that of a
running lease holder and, with no holder once a data path has started, the one last applied, and MPE.PERIOD shows it; a running plane's
own P(c) keeps every tick between 3.66 µs and 5.48 µs. A measurement at any other tick only waits for the next tick 0. Where the spec
leaves it open, the model's choice: assumptions 9, 55. It concludes that exec answers a next state for cycleStart. -/
def Obligations.CycleStartAdvancesTrueTime : Prop :=
  ∀ (s : State) (m : CycleMeas),
    (s.now % 4096 ≠ 0 → exec (.cycleStart m) s = .next { s with fs := { s.fs with meas := m } }) ∧
    (s.now % 4096 = 0 → ∃ t, exec (.cycleStart m) s = .next t ∧ t.fs.meas = m ∧ t.now = s.now ∧ t.fs.ports = s.fs.ports ∧ t.fs.lq = s.fs.lq ∧
      (∀ i, s.fs.au.holder = some i → (s.plane i).phase = .ready → t.fs.per = (t.plane i).mpe.own) ∧
      (s.fs.au.holder = none → s.dataPathStarted = true → t.fs.per = s.fs.per) ∧
      ∀ i, let x := s.plane i
        let y := t.plane i
        (x.phase = .unpowered → y = x) ∧
        (x.phase ≠ .unpowered → y.mpe.per = t.fs.per ∧ y.rd Reg.MPE_PERIOD = BitVec.ofNat 32 t.fs.per) ∧
        (x.phase = .ready → 239861760 ≤ y.mpe.own ∧ y.mpe.own ≤ 359137280) ∧
        (x.phase ≠ .unpowered → x.mpe.hist.head?.map TickRec.cycle ≠ some (s.now / 4096) →
          y.mpe.tt16 = (if x.mpe.ttCycle = s.now / 4096 then x.mpe.tt16 else x.mpe.tt16 + x.mpe.per) ∧
          y.mpe.trim = x.mpe.trim + x.mpe.trimStep ∧ (-16 ≤ y.mpe.trimStep ∧ y.mpe.trimStep ≤ 16) ∧
          (x.mpe.st ≠ .flywheel → y.rd Reg.MPE_FREQ = BitVec.ofNat 32 (m.freq % 131072)) ∧
          (y.mpe.hist.head?.map fun r => (r.cycle, r.ptp)) = some (s.now / 4096, m.ptp)))

/-- R72 to R74, R70: the MPE's states. ACQUIRE becomes LOCKED once 16 whole cycles were good and in phase; L1 disturbed (its envelope below 20
% for 1,024 ticks, two expected crossings missed in a row, a frequency outside 45 to 66 Hz or changing too fast, or in LOCKED a phase
error above 256 ticks) takes LOCKED and RELOCK to FLYWHEEL, which FLY_CNT counts; a good L1 with eight good cycles takes FLYWHEEL to
RELOCK; four whole cycles in phase take RELOCK to LOCKED. In every other case the state stays. Each entry sets its event; the ports and
the launch queue do not change. Where the active plane's P(c) differs from its own, a standby with its sync link up counts it in STEER_CNT
and sets EVT.STEER_DIFF; nothing else changes, and the P(c) in force stays. In every other case nothing changes. Where the spec leaves it
open, the model's choice: assumptions 28, 55. It concludes that exec answers a next state for lockAcquired, l1Disturbed, l1Good,
relockDone, steerDiff. -/
def Obligations.MpeStatesFollowTheMainsAndTheActivePeriod : Prop :=
  (∀ (s : State) (i : PlaneId), (s.plane i).phase = .ready →
    let x := s.plane i
    let l1 := x.mpe.phase 0
    let disturbed : Prop := 1024 ≤ l1.low20 ∨ 2 ≤ l1.missed ∨ (∃ m, x.mpe.meas.head? = some m ∧ (m.1 < 45000 ∨ 66000 < m.1)) ∨ x.mpe.fast = true ∨
      (x.mpe.st = .locked ∧ 65536 < x.mpe.err.natAbs)
    let kept (t : State) : Prop := t.now = s.now ∧ t.fs.ports = s.fs.ports ∧ t.fs.lq = s.fs.lq ∧ t.fs.au = s.fs.au ∧ t.fs.power = s.fs.power
    let goes (t : State) (st : MpeState) (e : Nat) : Prop := (t.plane i).mpe.st = st ∧ (t.plane i).mpe.runs = 0 ∧ (t.plane i).rdF Reg.MPE_EVT e e = 1
    (∃ t, exec (.lockAcquired i) s = .next t ∧ kept t ∧ (t.plane i.other).mpe.st = (s.plane i.other).mpe.st ∧
      if x.mpe.st = .acquire ∧ 16 ≤ x.mpe.runs then goes t .locked 8 ∧ (t.plane i).mpe.lockedTt = some (x.tt s.now) else (t.plane i).mpe.st = x.mpe.st) ∧
    (∃ t, exec .l1Disturbed s = .next t ∧ kept t ∧
      ((x.mpe.st = .locked ∨ x.mpe.st = .relock) ∧ disturbed → goes t .flywheel 9 ∧
        (t.plane i).rdF Reg.MPE_FLY_CNT 15 0 = satInc 65535 (x.rdF Reg.MPE_FLY_CNT 15 0)) ∧
      (¬ ((x.mpe.st = .locked ∨ x.mpe.st = .relock) ∧ disturbed) → (t.plane i).mpe.st = x.mpe.st)) ∧
    (∃ t, exec .l1Good s = .next t ∧ kept t ∧
      if x.mpe.st = .flywheel ∧ x.mpe.phGood.getLsbD 0 = true ∧ 8 ≤ x.mpe.runs then goes t .relock 10 else (t.plane i).mpe.st = x.mpe.st) ∧
    (∃ t, exec .relockDone s = .next t ∧ kept t ∧
      if x.mpe.st = .relock ∧ 4 ≤ x.mpe.runs then goes t .locked 8 else (t.plane i).mpe.st = x.mpe.st)) ∧
  (∀ (s : State) (period : Nat),
    (s.active? = none → exec (.steerDiff period) s = .next s) ∧
    (∀ i, s.active? = some i →
      let x := s.plane i.other
      let differs : Prop := x.phase = .ready ∧ x.red.role = .standby ∧ x.red.syncUp = true ∧ x.mpe.own ≠ period
      (differs → exec (.steerDiff period) s = .next (s.upd i.other fun x => (x.bump Reg.MPE_STEER_CNT 15 0).evt Reg.MPE_EVT 13)) ∧
      (¬ differs → exec (.steerDiff period) s = .next s)))

/-- R77 to R80, R160, R435: a Supply Loss Warning is due where a running plane has judged, on L1 or a phase of PH_MASK, two expected crossings
missed in a row or the envelope below 70 % of NOM_V for 1,024 ticks. It is raised in both planes at one stamp and starts ride-through with
the supply rating frozen; with the hold-up store faulted ride-through ends at once, and with the ports shed it does not start. While it
stands, or where none is due, nothing changes. Once every such phase is good MAINS_OK clears it and ends ride-through, not before. Where
the spec leaves it open, the model's choice: assumptions 35, 55. It concludes that exec answers a next state for supplyLossWarning,
mainsOk. -/
def Obligations.SupplyLossWarningRaisesAndClears : Prop :=
  ∀ s : State,
    let watched (p : Plane) (k : Nat) : Prop := k < 3 ∧ (k = 0 ∨ bit (p.cfg Reg.MPE_CFG) k = true)
    let due : Prop := ∃ i k, (s.plane i).phase = .ready ∧ watched (s.plane i) k ∧
      (2 ≤ ((s.plane i).mpe.phase k).missed ∨ 1024 ≤ ((s.plane i).mpe.phase k).low70)
    let good : Prop := ∀ k, watched (s.plane s.lead) k → (s.plane s.lead).mpe.phGood.getLsbD k = true
    let pw := s.fs.power
    let weak : Prop := (s.plane s.lead).rdF Reg.FAULT_FIELD_FLT 12 12 = 1
    (pw.slw = true ∨ ¬ due → exec .supplyLossWarning s = .next s) ∧
    (pw.slw = false → due →
      ∃ t, exec .supplyLossWarning s = .next t ∧ t.fs.power.slw = true ∧ t.fs.power.slwAt = s.now ∧ t.fs.ports = s.fs.ports ∧ t.fs.au = s.fs.au ∧
        (pw.shed = true → t.fs.power.ride = pw.ride ∧ t.fs.power.frozen = pw.frozen) ∧
        (pw.shed = false → ¬ weak → t.fs.power.ride = true ∧ t.fs.power.rideEnd = none ∧
          t.fs.power.frozen = some (supplyRating s.supplyMode pw.vmin)) ∧
        (pw.shed = false → weak → t.fs.power.ride = false ∧ t.fs.power.rideEnd = some s.now ∧ t.fs.power.frozen = none) ∧
        ∀ i, (s.plane i).phase = .ready → (t.plane i).mpe.slw = true ∧ (t.plane i).rd64 Reg.MPE_SLW_AT = s.now % 2 ^ 64 ∧
          (t.plane i).rdF Reg.MPE_SLW_CNT 15 0 = satInc 65535 ((s.plane i).rdF Reg.MPE_SLW_CNT 15 0) ∧ (t.plane i).rdF Reg.MPE_EVT 11 11 = 1) ∧
    (pw.slw = false ∨ ¬ good → exec .mainsOk s = .next s) ∧
    (pw.slw = true → good →
      ∃ t, exec .mainsOk s = .next t ∧ t.fs.power.slw = false ∧ t.fs.power.ride = false ∧ t.fs.power.rideEnd = none ∧ t.fs.power.frozen = none ∧
        t.fs.ports = s.fs.ports ∧
        ∀ i, (s.plane i).phase = .ready → (t.plane i).mpe.slw = false ∧ (t.plane i).rd64 Reg.MPE_OK_AT = s.now % 2 ^ 64 ∧
          (t.plane i).rdF Reg.MPE_EVT 12 12 = 1)

/-- R81, R93: a PTP message of the plane's profile and domain, on an uplink where PTP runs, reaches its servo; any other changes no plane. A
Sync on the uplink in the time-receiver state gives OFFSET and PATH; an offset above 10 µs takes SYNC to 0, the 16th in a row within 1 µs
takes it to 2, and a Sync on another uplink changes nothing. The active plane alone answers a Sync with one path request. An Announce
gives its uplink its rank; with no Announce any more no uplink is in the time-receiver state and SYNC is 0. Where the spec leaves it open,
the model's choice: assumptions 29, 56, 57. It concludes that exec answers a next state for ptpMessageReceive, announceReceiptTimeout. -/
def Obligations.PtpServoFollowsItsMessages : Prop :=
  ∀ (s : State) (i : PlaneId) (u profile : Fin 4) (domain : Byte) (offset : Int) (path rank : Nat), (s.plane i).phase = .ready →
    let x := s.plane i
    let takes : Prop := bit (x.cfg Reg.PTP_CTRL) 0 = true ∧ bit (x.cfg Reg.PTP_CFG) (16 + u) = true ∧ x.cfgF Reg.PTP_CFG 1 0 ≠ 0 ∧
      x.cfgF Reg.PTP_CFG 1 0 = profile ∧ domain.toNat = if profile = 3 then 0 else x.cfgF Reg.PTP_CFG 15 8
    (∃ t, exec (.ptpMessageReceive u { profile := profile, domain := domain, body := .sync offset path }) s = .next t ∧
      (¬ takes → t.plane i = x) ∧ (takes → x.mpe.receiver ≠ some u.val → t.plane i = x) ∧
      (takes → x.mpe.receiver = some u.val →
        (t.plane i).rd Reg.PTP_OFFSET = BitVec.ofNat 32 (toTwos 32 offset) ∧ (t.plane i).rd Reg.PTP_PATH = BitVec.ofNat 32 path ∧
        (10000 < offset.natAbs → (t.plane i).mpe.sync = 0 ∧ (t.plane i).mpe.syncRun = 0) ∧
        (offset.natAbs ≤ 1000 → (t.plane i).mpe.syncRun = min 16 (x.mpe.syncRun + 1) ∧
          (t.plane i).mpe.sync = if 15 ≤ x.mpe.syncRun ∨ x.mpe.sync = 2 then 2 else 1) ∧
        (1000 < offset.natAbs → offset.natAbs ≤ 10000 → (t.plane i).mpe.syncRun = 0 ∧
          (t.plane i).mpe.sync = if x.mpe.sync = 0 then 1 else x.mpe.sync) ∧
        (x.mpe.sync = 2 → 10000 < offset.natAbs → (t.plane i).rdF Reg.PTP_EVT 8 8 = 1)) ∧
      (s.active? = some i →
        if takes ∧ x.mpe.receiver = some u.val then
          t.fs = { s.fs with fab := { s.fs.fab with
            ptpSent := s.fs.fab.ptpSent ++ [{ plane := i, uplink := u.val, peer := profile == 3, at_ := s.now }] } }
        else t.fs = s.fs)) ∧
    (∃ t, exec (.ptpMessageReceive u { profile := profile, domain := domain, body := .announce rank }) s = .next t ∧ t.fs = s.fs ∧ (¬ takes → t.plane i = x) ∧
      (takes → (t.plane i).mpe.ranks = x.mpe.ranks.filter (fun e => e.1 != u.val) ++ [(u.val, rank)])) ∧
    (∃ t, exec .announceReceiptTimeout s = .next t ∧ t.fs = s.fs ∧ (t.plane i).mpe.sync = 0 ∧ (t.plane i).mpe.ranks = [] ∧
      (t.plane i).mpe.receiver = none ∧ (x.mpe.sync = 2 → (t.plane i).rdF Reg.PTP_EVT 8 8 = 1))

/-- R82, R83, R84: the plane that holds the lease sends its announcement, to ANN_GROUP and ANN_PORT on the uplink in the time-receiver state,
where it is a source, LOCKED or in FLYWHEEL, with SYNC 2, a new second and a key; where one of these is missing nothing is sent. A
received announcement that does not verify is counted in ANN_BAD and has no other effect. One that does is counted in ANN_RX; a source
takes only EVT.SOURCE_CONFLICT from another's; a receiver follows the lowest source heard, and only from it takes CYC_DIFF and RESID, and
the difference to adopt where it has no numbering. With PTP disabled nothing happens. Where the spec leaves it open, the model's choice:
assumptions 29, 56. It concludes that exec answers a next state for cycleAnnouncementSend, cycleAnnouncementReceive. -/
def Obligations.AnnouncementsAreSentByASourceAndCheckedByAReceiver : Prop :=
  ∀ (s : State) (i : PlaneId),
    let p := s.plane i
    let ready : Prop := bit (p.cfg Reg.PTP_CTRL) 0 = true ∧ bit (p.cfg Reg.PTP_CYC_CFG) 0 = true ∧ (p.mpe.st = .locked ∨ p.mpe.st = .flywheel) ∧
      p.mpe.sync = 2 ∧ p.mpe.newSecond = true ∧ s.now % 4096 < 2048
    (∀ k rest u, s.active? = some i → ready → p.annKeys false = k :: rest → p.mpe.receiver = some u →
      exec .cycleAnnouncementSend s = .next (s.field fun f => { f with fab := { f.fab with
        annSent := some { uplink := u, group := p.cfg Reg.PTP_ANN_GROUP, port := p.cfgF Reg.PTP_ANN_PORT 15 0, bytes := p.announcement k } } })) ∧
    (s.active? = some i → ¬ ready ∨ p.annKeys false = [] ∨ p.mpe.receiver = none → exec .cycleAnnouncementSend s = .next s) ∧
    (s.active? = none → exec .cycleAnnouncementSend s = .next s) ∧
    (∀ b : List Byte, p.phase = .ready →
      let n (o k : Nat) : Nat := ofLe (slice b o k)
      let good : Prop := b.length = 48 ∧ (∃ k ∈ p.annKeys true, (hmacOf k (b.take 32)).take 16 = b.drop 32) ∧ n 0 1 = 1 ∧
        n 2 2 = fld (p.cfg Reg.PTP_BUILDING) 15 0 ∧ n 1 1 / 4 % 2 = 1 ∧ p.mpe.sync = 2
      let follow := (insertNat (n 4 4) p.mpe.sources).headD (n 4 4)
      let m := p.mpe.measure (n 8 8 / 4096) (n 16 6 * 1000000000 + n 24 4) (max 1 (n 28 4))
      ∃ t, exec (.cycleAnnouncementReceive b) s = .next t ∧ t.fs = s.fs ∧
        (bit (p.cfg Reg.PTP_CTRL) 0 = false → t.plane i = p) ∧
        (bit (p.cfg Reg.PTP_CTRL) 0 = true → ¬ good → t.plane i = p.bump Reg.PTP_ANN_BAD 15 0) ∧
        (bit (p.cfg Reg.PTP_CTRL) 0 = true → good → bit (p.cfg Reg.PTP_CYC_CFG) 0 = true →
          t.plane i = if n 4 4 = (Config.fuse 0).toNat then p.bump Reg.PTP_ANN_RX 15 0 else (p.bump Reg.PTP_ANN_RX 15 0).evt Reg.PTP_EVT 11) ∧
        (bit (p.cfg Reg.PTP_CTRL) 0 = true → good → bit (p.cfg Reg.PTP_CYC_CFG) 0 = false →
          (t.plane i).rdF Reg.PTP_ANN_RX 15 0 = satInc 65535 (p.rdF Reg.PTP_ANN_RX 15 0) ∧ (t.plane i).rd Reg.PTP_FOLLOW_ID = BitVec.ofNat 32 follow ∧
          (n 4 4 ≠ follow → (t.plane i).mpe.cycDiff = p.mpe.cycDiff ∧ (t.plane i).mpe.adopt = p.mpe.adopt) ∧
          (n 4 4 = follow → (t.plane i).mpe.cycDiff = m.1 ∧ (t.plane i).rd Reg.PTP_CYC_DIFF = BitVec.ofNat 32 (toTwos 32 m.1) ∧
            (t.plane i).rd Reg.PTP_RESID = BitVec.ofNat 32 (toTwos 32 m.2.1) ∧
            (p.mpe.cyc = .none → (t.plane i).mpe.adopt = some (p.mpe.adopt.getD m.1)))))

/-- R86, R88, R88: at a tick 0 the planes that wait to adopt take up the source's numbering; before any data path has started the cycle number
steps by the difference with it, after that it stays. A plane that has heard no announcement within the wait becomes STANDALONE, not
before. A requested forward step happens at the first tick 0 with no command in flight, by CYC_DIFF cycles; one whose CYC_DIFF is no
longer positive is dropped (assumption 56). CYC_CTRL.REALIGN on the active plane is a configuration write, refused and counted where
CYC_DIFF is not positive; on another plane it is ignored and counted. R99, R116: at a half-cycle boundary with no class G1 command in
flight and no waiting change of the authority registers, GAP_MAX and G1_SLACK are those of the applied mode, and with a class G1 command
in flight they stay; away from a boundary nothing happens. Where the spec leaves it open, the model's choice: assumptions 29, 56. It
concludes that exec answers a next state for halfCycleBoundary, adopt, adoptWaitExpiry, realign, realigned. -/
def Obligations.NumberingIsAdoptedRealignedAndSettled : Prop :=
  (∀ (s : State) (d : Int),
    let waits (i : PlaneId) : Prop := (s.plane i).phase = .ready ∧ (s.plane i).mpe.cyc = .none ∧ (s.plane i).mpe.adopt.isSome = true
    let idle : Prop := s.a.slotsIn Slot.alive = [] ∧ s.b.slotsIn Slot.alive = []
    (s.now % 4096 ≠ 0 ∨ ¬ (waits .a ∨ waits .b) → exec .adopt s = .next s) ∧
    (∀ i, s.now % 4096 = 0 → waits i → (¬ waits s.lead ∨ i = s.lead) → (s.plane i).mpe.adopt = some d →
      ∃ t, exec .adopt s = .next t ∧ t.now = (if s.dataPathStarted then s.now else (s.now + d * 4096).toNat) ∧
        ∀ j, waits j → (t.plane j).mpe.cyc = .adopted ∧ (t.plane j).mpe.adopt = none ∧ (t.plane j).mpe.cycDiff = 0 ∧
          (t.plane j).rdF Reg.PTP_EVT 9 9 = 1 ∧ ((s.plane j).mpe.lockedTt.isSome = true → (t.plane j).mpe.timeValid = true)) ∧
    (∀ i, let x := s.plane i
      let elapsed : Prop := x.phase = .ready ∧ x.mpe.cyc = .none ∧ x.mpe.adopt = none ∧ ∃ tt, x.mpe.lockedTt = some tt ∧
        tt + max 1 (fld (x.cfg Reg.PTP_CYC_CFG) 31 24) * 1000000000 ≤ x.tt s.now
      (elapsed → ∃ t, exec (.adoptWaitExpiry i) s = .next t ∧ t.plane i.other = s.plane i.other ∧ t.fs = s.fs ∧
        (t.plane i).mpe.cyc = .standalone ∧ (t.plane i).mpe.timeValid = true) ∧
      (¬ elapsed → exec (.adoptWaitExpiry i) s = .next s)) ∧
    (s.now % 4096 ≠ 0 ∨ (s.plane s.lead).mpe.realign = false ∨ ¬ idle → exec .realigned s = .next s) ∧
    (s.now % 4096 = 0 → (s.plane s.lead).mpe.realign = true → (s.plane s.lead).mpe.cycDiff = d → idle →
      ∃ t, exec .realigned s = .next t ∧ t.now = (if 0 < d then (s.now + d * 4096).toNat else s.now) ∧
        ∀ i, (s.plane i).phase = .ready → (t.plane i).mpe.realign = false ∧
          (0 < d → (t.plane i).mpe.cycDiff = 0 ∧ (t.plane i).mpe.cyc = .adopted ∧ (t.plane i).rdF Reg.PTP_EVT 13 13 = 1))) ∧
  (∀ (s : State) (i : PlaneId) (tag : Tag),
    let p := s.plane i
    (s.writes i tag 0x1#4 Reg.PTP_CYC_CTRL 1 →
      (p.isActive = true → 0 < p.mpe.cycDiff →
        ∃ t, exec (.realign i tag) s = .next t ∧ (t.plane i).mpe = p.mpe ∧ configTaken s t i [(Reg.PTP_CYC_CTRL, 1, 1)]) ∧
      (p.isActive = true → p.mpe.cycDiff ≤ 0 → exec (.realign i tag) s = .next (s.upd i fun p => p.err Reg.PTP_PAGE)) ∧
      (p.isActive = false → exec (.realign i tag) s = .next (s.upd i fun p => (p.err Reg.PTP_PAGE).evt Reg.SYS_EVT 11))) ∧
    (s.now % 2048 ≠ 0 → exec .halfCycleBoundary s = .next s) ∧
    (s.now % 2048 = 0 → p.phase = .ready →
      ∃ t, exec .halfCycleBoundary s = .next t ∧ t.now = s.now ∧ (t.plane i).applied = p.applied ∧
        ((p.weir.slots.any fun e => e.2.alive && e.2.g1) = false → (p.cfgQ.any fun q => q.addr == Reg.RED_AUTH) = false →
          (t.plane i).weir.gapMax = (if bit (p.cfg Reg.RED_AUTH) 0 then 1 else fld (p.cfg Reg.RED_AUTH) 11 8 + 2) ∧
          (t.plane i).weir.g1Slack = max 4 (t.plane i).weir.gapMax) ∧
        ((p.weir.slots.any fun e => e.2.alive && e.2.g1) = true →
          (t.plane i).weir.gapMax = p.weir.gapMax ∧ (t.plane i).weir.g1Slack = p.weir.g1Slack)))

/-- R147, R148, R153: detection and classification. A searching port with a valid signature classifies; one that finds none searches on. A
classified port takes the highest class, no higher than the requested one, whose power its type and CFG.CAP allow, demoted only from class
4 or more and never below 3, and waits for a grant, or uses one that it holds; where there is no such class it is DENIED. A dual-signature
PD's pairsets take classes whose sum is within CFG.CAP. A port that waits or is denied and loses its signature searches again with nothing
granted. In any other state nothing happens, and no other port changes. Where the spec leaves it open, the model's choice: assumption 2.
It concludes that exec answers a next state for portSignatureFound, detectionRetry, classMeasured, signatureRecheck. -/
def Obligations.PortsDetectAndClassify : Prop :=
  ∀ (s : State) (n : Fin 128) (dual present : Bool) (k : Fin 9) (kb : Fin 6),
    let x := s.fs.port n.val
    let cfg (hi lo : Nat) : Nat := fld (s.cfg (Reg.PORTG_CFG (n.val / 8) (n.val % 8))) hi lo
    let capped (w : Nat) : Prop := cfg 15 8 = 0 ∨ w ≤ 500 * min 180 (cfg 15 8)
    let fits (j : Nat) : Prop := classPower j ≤ classPower (if cfg 1 1 = 1 then 8 else 6) ∧ capped (classPower j)
    let assigned (j : Nat) : Prop := fits j ∧ (k.val ≤ 3 → j = k.val) ∧ (4 ≤ k.val → 3 ≤ j ∧ j ≤ k.val ∧ ∀ m, j < m → m ≤ k.val → ¬ fits m)
    let y : PortSt := { x with classReq := k.val, dual := false, classReqB := 15, clsB := 15 }
    let z : PortSt := { x with classReq := k.val, dual := true, classReqB := kb.val }
    let top : Nat := if cfg 1 1 = 1 then 5 else 4
    (x.st = .searching →
      (∃ t, exec (.portSignatureFound n dual) s = .next t ∧ enteredPort s t n.val { x with st := .classifying, dual := dual }) ∧
      exec (.detectionRetry n) s = .next (s.field fun f => f.setPort n.val { x with since := s.now })) ∧
    (x.st ≠ .searching → exec (.portSignatureFound n dual) s = .next s ∧ exec (.detectionRetry n) s = .next s) ∧
    (x.st = .classifying →
      (∀ j, assigned j → ∃ t, exec (.classMeasured n k none) s = .next t ∧
        enteredPort s t n.val (classifiedPort s { y with cls := j, fourPair := !(decide (cfg 2 2 = 1 ∧ j ≤ 4)) } (classPower j))) ∧
      ((∀ j, ¬ assigned j) → ∃ t, exec (.classMeasured n k none) s = .next t ∧ enteredPort s t n.val { y.off with st := .denied, cls := 15 }) ∧
      (∀ a b, assignDual s.cfg n.val k.val kb.val = some (a, b) → a ≤ min k.val top ∧ b ≤ min kb.val top ∧ capped (classPower a + classPower b) ∧
        ∃ t, exec (.classMeasured n k (some kb)) s = .next t ∧
          enteredPort s t n.val (classifiedPort s { z with cls := a, clsB := b, fourPair := true } (classPower a + classPower b))) ∧
      (assignDual s.cfg n.val k.val kb.val = none → ¬ capped (classPower (min 3 (min k.val top)) + classPower (min 3 (min kb.val top))) ∧
        ∃ t, exec (.classMeasured n k (some kb)) s = .next t ∧ enteredPort s t n.val { z.off with st := .denied, cls := 15, clsB := 15 })) ∧
    (x.st ≠ .classifying → exec (.classMeasured n k none) s = .next s ∧ exec (.classMeasured n k (some kb)) s = .next s) ∧
    (present = false → x.st = .waitBudget ∨ x.st = .denied →
      ∃ t, exec (.signatureRecheck n present) s = .next t ∧ enteredPort s t n.val { x.off with st := .searching, fault := 0 }) ∧
    (present = true ∨ ¬ (x.st = .waitBudget ∨ x.st = .denied) → exec (.signatureRecheck n present) s = .next s)

/-- R153, R154: power-up, loss of power and faults. A port in POWER_UP that reaches regulation is POWERED; an inrush, an overload or a short
takes power from it, releases its grant and counts a fault with its cause; a lost MPS returns it to SEARCHING; a fault other than leakage
is retried where the port is commanded ON. In any other state nothing happens, and no other port changes. Where the spec leaves it open,
the model's choice: assumption 2. It concludes that exec answers a next state for powerUpRegulation, inrush, mpsLost, overload,
faultRetry. -/
def Obligations.PortsPowerUpAndFault : Prop :=
  ∀ (s : State) (n : Fin 128) (short : Bool),
    let x := s.fs.port n.val
    let retries : Prop := x.st = .fault ∧ x.cmd = 1 ∧ x.fault ≠ 4
    (x.st = .powerUp →
      (∃ t, exec (.powerUpRegulation n) s = .next t ∧ enteredPort s t n.val { x with st := .powered, volt := true, powerUpAt := none }) ∧
      ∃ t, exec (.inrush n) s = .next t ∧ faultedPort s t n.val 3) ∧
    (x.st ≠ .powerUp → exec (.powerUpRegulation n) s = .next s ∧ exec (.inrush n) s = .next s) ∧
    (x.st = .powered → ∃ t, exec (.mpsLost n) s = .next t ∧ enteredPort s t n.val { x.off with st := .searching, fault := 0 }) ∧
    (x.st ≠ .powered → exec (.mpsLost n) s = .next s) ∧
    (x.st = .powered ∨ x.st = .powerUp → ∃ t, exec (.overload n short) s = .next t ∧ faultedPort s t n.val (if short then 2 else 1)) ∧
    (¬ (x.st = .powered ∨ x.st = .powerUp) → exec (.overload n short) s = .next s) ∧
    (retries → ∃ t, exec (.faultRetry n) s = .next t ∧ enteredPort s t n.val { x with st := .searching, fault := 0 }) ∧
    (¬ retries → exec (.faultRetry n) s = .next s)

/-- R154, R157, R158, R162, R414, R435: a PSE fault takes every port of its group to FAULT with its power and grant, and no other port, and
raises its field flag. A failed converter cell leaves service and raises its flag; AVAIL falls at once to the value computed without it,
and never rises; where the grants then fit no port changes, and otherwise only ports that were granted power change, each to SHED without
it. A leakage check takes a result only on a port in DISABLED, DENIED, SLEEP or SHED, while the check is enabled and no PSE state change
of the port's group is booked in the half-cycle: a failed one takes the port to FAULT, a passed one changes no port, both note the check
in every running plane, and one that is abandoned has no effect. Where the spec leaves it open, the model's choice: assumption 2. It
concludes that exec answers a next state for pseFault, cellFault, leakageCheck. -/
def Obligations.PseCellAndLeakageFaults : Prop :=
  ∀ (s : State) (g : Fin 16) (c : Fin 4) (n : Fin 128) (r : LeakResult),
    let cells := s.fs.power.cells &&& ~~~(1#4 <<< c.val)
    let avail := ({ s with fs := { s.fs with power := { s.fs.power with cells := cells } } } : State).availNow
    let x := s.fs.port n.val
    let checks : Prop := (x.st = .disabled ∨ x.st = .denied ∨ x.st = .sleep ∨ x.st = .shed) ∧ (s.plane s.lead).bkgOn 3 = true ∧
      ¬ ∃ l ∈ s.fs.lq, 0x100 ≤ l.path ∧ l.path < 0x180 ∧ (l.path - 0x100) / 8 = n.val / 8 ∧ l.tick / 2048 = s.now / 2048
    (∃ t, exec (.pseFault g) s = .next t ∧ t.now = s.now ∧ t.fs = { s.fs with ports := t.fs.ports } ∧
      (∀ m, (m / 8 = g.val → t.fs.port m = { (s.fs.port m).off with st := .fault, fault := 5, since := s.now }) ∧
        (m / 8 ≠ g.val → t.fs.port m = s.fs.port m)) ∧
      ∀ i, (s.plane i).phase = .ready → (t.plane i).rdF Reg.FAULT_FIELD_FLT 6 6 = 1) ∧
    (∃ t, exec (.cellFault c) s = .next t ∧ t.now = s.now ∧ t.fs.power.cells = cells ∧ t.fs.power.avail = min s.fs.power.avail avail ∧ t.fs.lq = s.fs.lq ∧
      (s.fs.allocSum ≤ t.fs.power.avail → t.fs.ports = s.fs.ports) ∧
      (∀ m, t.fs.port m = s.fs.port m ∨
        (s.fs.port m).counted ≠ 0 ∧ (t.fs.port m).st = .shed ∧ (t.fs.port m).alloc = 0 ∧ (t.fs.port m).volt = false) ∧
      ∀ i, (s.plane i).phase = .ready → (t.plane i).rdF Reg.FAULT_FIELD_FLT c.val c.val = 1 ∧ (t.plane i).rdF Reg.PWR_EVT 11 11 = 1) ∧
    (¬ checks ∨ r = .abandoned → exec (.leakageCheck n r) s = .next s) ∧
    (checks → r ≠ .abandoned → ∃ t, exec (.leakageCheck n r) s = .next t ∧ t.now = s.now ∧
      t.fs = (if r = .fail then s.fs.setPort n.val { x.off with st := .fault, fault := 4, since := s.now } else s.fs) ∧
      ∀ i, (s.plane i).phase = .ready → Tab.get (fun _ => 0) (t.plane i).bkg.leakTt n.val = (s.plane i).tt s.now ∧
        (r = .fail → (t.plane i).rdF (Reg.PORTG_CNT (n.val / 8) (n.val % 8)) 7 0 = satInc 255 ((s.plane i).rdF (Reg.PORTG_CNT (n.val / 8) (n.val % 8)) 7 0)))

/-- R157, R160 to R162, R432, R151, R164, R279: ride-through ends once RT_MAX, of 20 to 200 ms of true time, has passed since the warning, or
at the store's threshold, and not before. With the supply still lost, at the first tick after its end: with two phases of a three-phase
supply good the mode becomes partial and AVAIL falls to at most what it then allows, under an overload shed; otherwise every port that is
not DISABLED, in FAULT or SHED leaves with its power and grant, the queued launches are withdrawn, a waiting restart is dropped and every
running plane takes the stamp. In every other case nothing happens. At a half-cycle boundary the ports that matching frames name and that
are commanded SLEEP are commanded ON, with STATE.INTENT ON in every running plane, and no other port is; the matches are used up. Away
from a boundary, or with no match, nothing happens. Where the spec leaves it open, the model's choice: assumption 35. It concludes that
exec answers a next state for rideThroughEnd, shed, wakeLaunch. -/
def Obligations.RideThroughShedsAndWakesLaunchPorts : Prop :=
  (∀ (s : State) (store : Bool),
    let w := s.fs.power
    let elapsed : Prop := w.slwTt + max 20 (min 200 (fld (s.cfg Reg.PWR_CFG) 7 0)) * 1000000 ≤ s.ttNow
    let due : Prop := w.slw = true ∧ ∃ e, w.rideEnd = some e ∧ e < s.now
    let part : Prop := s.goodPhases = 2 ∧ fld (s.cfg Reg.MPE_CFG) 2 1 = 3
    (w.ride = true ∧ (store = true ∨ elapsed) → exec (.rideThroughEnd store) s = .next (s.field fun f => { f with power := { f.power with
      ride := false, rideEnd := some s.now, frozen := none } })) ∧
    (¬ (w.ride = true ∧ (store = true ∨ elapsed)) → exec (.rideThroughEnd store) s = .next s) ∧
    (¬ due → exec .shed s = .next s) ∧
    (due → part → ∃ t, exec .shed s = .next t ∧ t.now = s.now ∧ t.supplyMode = 2 ∧ t.fs.power.ride = false ∧ t.fs.power.rideEnd = none ∧ t.fs.lq = s.fs.lq ∧
      t.fs.power.avail = min w.avail (min (supplyRating 2 t.fs.power.vmin) (cellRating w.cells) - 100000 * (w.intake - 40)) ∧
      ∀ m, t.fs.port m = s.fs.port m ∨ (s.fs.port m).counted ≠ 0 ∧ (t.fs.port m).st = .shed ∧ (t.fs.port m).alloc = 0 ∧ (t.fs.port m).volt = false) ∧
    (due → ¬ part → ∃ t, exec .shed s = .next t ∧ t.fs.power.shed = true ∧ t.fs.power.shedAt = s.now ∧ t.fs.power.ride = false ∧
        (∀ l ∈ t.fs.lq, l.released = true) ∧ t.fs.restart = none ∧
        (∀ n : Fin 128, let x := s.fs.port n.val
          (x.st = .disabled ∨ x.st = .fault ∨ x.st = .shed → t.fs.port n.val = x) ∧
          (¬ (x.st = .disabled ∨ x.st = .fault ∨ x.st = .shed) →
            (t.fs.port n.val).st = .shed ∧ (t.fs.port n.val).alloc = 0 ∧ (t.fs.port n.val).volt = false)) ∧
        ∀ i, (s.plane i).phase = .ready → (t.plane i).rd64 Reg.PWR_SHED_AT = s.now % 2 ^ 64 ∧ (t.plane i).start.pfAt.isSome = true)) ∧
  (∀ s : State,
    (s.now % 2048 ≠ 0 ∨ s.fs.waking = [] → exec .wakeLaunch s = .next s) ∧
    (s.now % 2048 = 0 → s.fs.waking ≠ [] → ∃ t, exec .wakeLaunch s = .next t ∧ t.fs.waking = [] ∧ t.fs.power = s.fs.power ∧ t.fs.lq = s.fs.lq ∧
      ∀ n : Fin 128,
        let woken : Prop := (s.fs.port n.val).cmd = 2 ∧ ∃ e ∈ s.fs.waking, e.2.1 / 2 ^ n.val % 2 = 1
        (woken → (t.fs.port n.val).cmd = 1 ∧ (t.fs.port n.val).cmdAt = s.now ∧ (t.fs.port n.val).st ≠ .sleep ∧
          ∀ i, (s.plane i).phase = .ready → fld ((t.plane i).cfg (Reg.PORTG_STATE (n.val / 8) (n.val % 8))) 1 0 = 1) ∧
        (¬ woken → t.fs.port n.val = s.fs.port n.val)))

/-- R105 to R110, R105: what an acceptance promises. The record's format, tags and conditions hold; the booked tick is later than the
half-cycle of the decision and 16 ticks, not before a claim stamp still to come, within the 64 half-cycles of the model (less GAP_MAX for
class G1), and leaves the path's allowance, and for class G1 G1_SLACK, before DEADLINE; every resource is free at that tick and for class
G1 at the recovery tick; the command takes the next CMD_SEQ. An EARLIEST command is booked at the earliest tick that fits: no tick from
the first admissible one up to it has every resource, for class G1 at its recovery tick too. -/
def Obligations.AcceptedCommandsKeepTheirBounds : Prop :=
  (∀ (p : Plane) (f : FieldSide) (sub : Submission) (now : Nat) (x : Slot) (need : Need),
    (decide_ p f sub now).accept = some (x, need) →
    let r := sub.record
    let allow := allowance p.cfg need.path
    (decide_ p f sub now).code = 0x10 ∧ recFormat p.cfg p (sub.path == 9) r = 0 ∧
    recShore p.cfg sub.tag.toNat r (recAction p.cfg r) = 0 ∧
    recDisabled p.cfg f p x.g1 (recAction p.cfg r) need.path = 0 ∧
    x.st = .booked ∧ x.seq = p.weir.nextSeq ∧ x.deadline = ofLe (slice r 12 8) ∧ x.path = need.path ∧ x.action = recAction p.cfg r ∧
    (halfOf now + 1) * 2048 ≤ x.launch ∧ now + 16 ≤ x.launch ∧ (now < p.rd64 Reg.RED_CLAIM_AT → p.rd64 Reg.RED_CLAIM_AT ≤ x.launch) ∧
    halfOf x.launch ≤ halfOf now + 64 - (if x.g1 then p.weir.gapMax else 0) ∧
    x.launch + allow + (if x.g1 then p.weir.g1Slack * 2048 else 0) ≤ x.deadline ∧
    (x.earliest = false → x.launch = ofLe (slice r 4 8)) ∧
    fits p.cfg f p.weir need x.launch = true ∧
    (x.g1 = true → x.recovery = some (x.launch + p.weir.gapMax * 2048) ∧ fits p.cfg f p.weir need (x.launch + p.weir.gapMax * 2048) = true) ∧
    (x.g1 = false → x.recovery = none)) ∧
  (∀ (p : Plane) (f : FieldSide) (sub : Submission) (now : Nat) (x : Slot) (need : Need) (t : Nat),
    (decide_ p f sub now).accept = some (x, need) → x.earliest = true →
    (halfOf now + 1) * 2048 ≤ t → now + 16 ≤ t → (now < p.rd64 Reg.RED_CLAIM_AT → p.rd64 Reg.RED_CLAIM_AT ≤ t) → t < x.launch →
    fits p.cfg f p.weir need t = false ∨ (x.g1 = true ∧ fits p.cfg f p.weir need (t + p.weir.gapMax * 2048) = false))

/-- R106 to R110: a submission that is refused is refused for the first test that it fails, in the order format, tag, disabling condition,
window and resources, with that test's code and detail; one for a fixed tick that fails none is accepted at that tick. -/
def Obligations.RefusedCommandsCarryTheFirstFailingTest : Prop :=
  ∀ (p : Plane) (f : FieldSide) (sub : Submission) (now : Nat),
    let r := sub.record
    let n (o k : Nat) : Nat := ofLe (slice r o k)
    let a := recAction p.cfg r
    let need := actionNeed p.cfg a
    let g1 : Prop := n 1 1 / 2 % 2 = 1
    let gap := if n 1 1 / 2 % 2 = 1 then p.weir.gapMax else 0
    let slack := allowance p.cfg need.path + (if n 1 1 / 2 % 2 = 1 then p.weir.g1Slack * 2048 else 0)
    let format := recFormat p.cfg p (sub.path == 9) r
    let shore := recShore p.cfg sub.tag.toNat r a
    let off := recDisabled p.cfg f p (n 1 1 / 2 % 2 == 1) a need.path
    let v := decide_ p f sub now
    let refused (code detail : Nat) : Prop := v = { code := code, detail := detail, slot := n 2 1, accept := none }
    let early : Prop := n 4 8 < (halfOf now + 1) * 2048 ∨ n 4 8 < now + 16 ∨ (now < p.rd64 Reg.RED_CLAIM_AT ∧ n 4 8 < p.rd64 Reg.RED_CLAIM_AT)
    let late : Prop := halfOf now + 64 - gap < halfOf (n 4 8)
    (format ≠ 0 → refused 0x24 format) ∧
    (format = 0 → shore ≠ 0 → refused 0x22 shore) ∧
    (format = 0 → shore = 0 → off ≠ 0 → refused 0x23 off) ∧
    (format = 0 → shore = 0 → off = 0 → n 1 1 % 2 = 0 →
      (early → refused 0x21 0x30) ∧ (¬ early → late → refused 0x21 0x31) ∧
      (¬ early → ¬ late → n 12 8 < n 4 8 + slack → refused 0x21 0x32) ∧
      (¬ early → ¬ late → n 4 8 + slack ≤ n 12 8 →
        (lacks p.cfg f p.weir need (n 4 8) ≠ 0 → refused 0x20 (lacks p.cfg f p.weir need (n 4 8))) ∧
        (lacks p.cfg f p.weir need (n 4 8) = 0 → g1 → lacks p.cfg f p.weir need (n 4 8 + p.weir.gapMax * 2048) ≠ 0 → refused 0x20 0x46) ∧
        (lacks p.cfg f p.weir need (n 4 8) = 0 → (g1 → lacks p.cfg f p.weir need (n 4 8 + p.weir.gapMax * 2048) = 0) →
          v.code = 0x10 ∧ ∃ x, v.accept = some (x, need) ∧ x.launch = n 4 8)))

/-- R29, R96: the write of SUBMIT_7 submits the path's record, with the bytes that it does not write as they were: on the active plane it
waits for Weir with RESULT PENDING, and while RESULT is PENDING the write is ignored and counted; on a plane that is not active it is
refused at once and nothing waits. A write with no byte enabled does nothing. Where the spec leaves it open, the model's choice:
assumptions 31, 58. It concludes that exec answers a next state for cmdSubmit. -/
def Obligations.SubmitWaitsForWeir : Prop :=
  ∀ (s : State) (i : PlaneId) (tag : Tag) (be : BitVec 4) (data : Word), s.writes i tag be (Reg.CMD_SUBMIT 7) data →
    let p := s.plane i
    let bytes := wordBytes ((List.range 7).map (fun k => p.prd 0 (Reg.CMD_SUBMIT k)) ++ [merge (beMask be) (p.prd 0 (Reg.CMD_SUBMIT 7)) data])
    (be = 0 → exec (.cmdSubmit i tag be data) s = .next s) ∧
    (be ≠ 0 → p.prdF 0 Reg.CMD_RESULT 7 0 = 1 → exec (.cmdSubmit i tag be data) s = .next (s.upd i fun p => p.err 0x09)) ∧
    (be ≠ 0 → p.prdF 0 Reg.CMD_RESULT 7 0 ≠ 1 → p.isActive = true →
      ∃ t, exec (.cmdSubmit i tag be data) s = .next t ∧ (t.plane i).prdF 0 Reg.CMD_RESULT 7 0 = 1 ∧
        (t.plane i).weir.subs = p.weir.subs ++ [{ path := 0, tag := tag, record := bytes }] ∧ (t.plane i).weir.slots = p.weir.slots ∧
        (∀ a, (t.plane i).rd a = p.rd a) ∧ t.plane i.other = s.plane i.other ∧ t.fs = s.fs) ∧
    (be ≠ 0 → p.prdF 0 Reg.CMD_RESULT 7 0 ≠ 1 → p.isActive = false →
      ∃ t, exec (.cmdSubmit i tag be data) s = .next t ∧ (t.plane i).prdF 0 Reg.CMD_RESULT 7 0 = 0x23 ∧
        (t.plane i).prdF 0 Reg.CMD_RESULT 23 16 = 0x21 ∧ (t.plane i).weir = p.weir ∧ t.plane i.other = s.plane i.other ∧ t.fs = s.fs)

/-- R105, R109, R216: Weir answers the submission of the next source in turn, and with none waiting does nothing. An acceptance fills its
slot, books its tick and takes the next CMD_SEQ; a refusal changes no slot and no booking; either leaves the source's queue, and a path is
answered with the verdict's code, slot and detail, the Scan Engine with a delivery failure. A plane that is not active accepts nothing.
The standby, and a plane that catches up, take the active plane's decision with its slot, number and ticks; any other plane does not.
Where the spec leaves it open, the model's choice: assumptions 10, 32. It concludes that exec answers a next state for weirDecide,
decisionSync. -/
def Obligations.WeirDecidesInTurnAndTheStandbyFollows : Prop :=
  ∀ (s : State) (i : PlaneId) (k : Nat) (sub : Submission) (d : Decision),
    let p := s.plane i
    let w := if p.red.role = .standby then { p.weir with scanQ := [] } else p.weir
    let v := decide_ p s.fs (if k = 9 then p.slotted sub else sub) s.now
    let served (t : State) : Prop := (t.plane i).weir.subs = (p.weir.subs.filter fun q => k == 9 || q.path != k) ∧
      (k = 9 → p.isActive = true → (t.plane i).weir.scanQ = p.weir.scanQ.drop 1)
    let answered (t : State) (code slot detail : Nat) : Prop :=
      (k < 9 → (t.plane i).prd k Reg.CMD_RESULT = BitVec.ofNat 32 (code + 256 * slot + 65536 * detail)) ∧
      (k = 9 → code ≠ 0x10 → p.phase = .ready → (t.plane i).scan.dfails = p.scan.dfails + 1)
    (w.nextSource = none → exec (.weirDecide i) s = .next s) ∧
    (w.nextSource = some k → w.waiting k = some sub →
      (∀ x need, p.isActive = true → v.accept = some (x, need) →
        ∃ t, exec (.weirDecide i) s = .next t ∧ served t ∧ answered t 0x10 v.slot 0 ∧
          (t.plane i).slot v.slot = { x with st := if halfOf x.launch ≤ halfOf s.now + 1 then .sent else .booked } ∧
          (∀ n, n ≠ v.slot → (t.plane i).slot n = p.slot n) ∧ (t.plane i).weir.nextSeq = (x.seq + 1) % 2 ^ 32 ∧
          (∃ b : Booking, b ∈ (t.plane i).weir.books ∧ b.src = .slot v.slot ∧ b.tick = x.launch ∧ b.path = need.path) ∧
          ((s.plane i.other).follows = true → ∃ e : Decision, (s.now + 1, Instr.decisionSync e) ∈ t.fs.due ∧ e.slot.val = v.slot % 256 ∧
            e.seq = x.seq ∧ e.launch = x.launch) ∧ t.plane i.other = s.plane i.other) ∧
      (p.isActive = true → v.accept = none →
        ∃ t, exec (.weirDecide i) s = .next t ∧ served t ∧ answered t v.code v.slot v.detail ∧ (t.plane i).weir.slots = p.weir.slots ∧
          (t.plane i).weir.books = p.weir.books ∧ t.fs = s.fs) ∧
      (p.isActive = false →
        ∃ t, exec (.weirDecide i) s = .next t ∧ served t ∧ answered t 0x23 (ofLe (slice (if k = 9 then p.slotted sub else sub).record 2 1)) 0x21 ∧
          (t.plane i).weir.slots = p.weir.slots ∧ (t.plane i).weir.books = p.weir.books ∧ t.fs = s.fs)) ∧
    (∃ t, exec (.decisionSync d) s = .next t ∧ t.fs = s.fs ∧ (p.follows = false → t.plane i = p) ∧
      (p.follows = true →
        (t.plane i).slot d.slot.val = { (decisionSlot p.cfg d).1 with st := if halfOf d.launch ≤ halfOf s.now + 1 then .sent else .booked } ∧
        ((t.plane i).slot d.slot.val).launch = d.launch ∧ ((t.plane i).slot d.slot.val).recovery = d.recovery ∧
        ((t.plane i).slot d.slot.val).seq = d.seq ∧ (∀ n, n ≠ d.slot.val → (t.plane i).slot n = p.slot n) ∧
        (t.plane i).weir.nextSeq = (d.seq + 1) % 2 ^ 32))

/-- R28, R111, R120, R137, R150, R230, R250: the send time of a launch. A BOOKED or SENT command whose half-cycle is at most the next becomes
SENT; a booked firing of an ARMED head in the next half-cycle, and a booked launch of a loop, count in the plane, and a loop's launch
whose head no longer stands is missed; a booked intent is sent. The blocks go out from the active plane alone, over its live link, and not
for a tick before its claim stamp; nothing is launched yet. Where nothing is due, or the plane does not run, nothing changes. Where the
spec leaves it open, the model's choice: assumption 10. It concludes that exec answers a next state for launchSend. -/
def Obligations.LaunchesAreSentInTheHalfCycleBefore : Prop :=
  ∀ (s : State) (i : PlaneId) (n : Fin 256) (j : Fin 4096) (l : Fin 512) (port : Fin 128),
    let p := s.plane i
    let x := p.slot n.val
    let r := loopRecOf p.cfg l.val
    let q := s.now / 1024 * 1024 + r.ofs
    let counted : State := s.upd i fun p => p.setLoop l.val { p.loop l.val with seq := (p.loop l.val).seq + 1 }
    let due : Prop := (x.st = .booked ∨ x.st = .sent) ∧ halfOf x.launch ≤ halfOf s.now + 1
    let goes (src : LaunchSrc) (tick : Nat) : Prop := p.isActive = true ∧ p.rd64 Reg.RED_CLAIM_AT ≤ tick ∧ (p.weir.linkOf src tick).isSome = true
    let booked (src : LaunchSrc) (tick : Nat) : Prop := ∃ b ∈ p.weir.books, b.src = src ∧ b.tick = tick
    let sends (c : Instr) (u : State) (src : LaunchSrc) (tick : Nat) : Prop :=
      (¬ goes src tick → exec c s = .next u) ∧
      (goes src tick → ∃ t b, exec c s = .next t ∧ b.tick = tick ∧ blocksSent u t i src b ∧ t.fs.lq = s.fs.lq ∧ t.plane i.other = s.plane i.other ∧
        (t.plane i).weir.slots = (u.plane i).weir.slots ∧ (t.plane i).heads = (u.plane i).heads ∧ (t.plane i).loops = (u.plane i).loops)
    (p.phase ≠ .ready → ∀ src, exec (.launchSend i src) s = .next s) ∧
    (p.phase = .ready →
      (due → sends (.launchSend i (.slot n)) (s.upd i fun p => p.setSlot n.val { x with st := .sent }) (.slot n.val) x.launch) ∧
      (¬ due → exec (.launchSend i (.slot n)) s = .next s) ∧
      (∀ tick, headTick (atHead p.cfg j.val) (halfOf s.now + 1) = some tick → (p.head j.val).st = .armed → booked (.head j.val) tick →
        sends (.launchSend i (.head j)) (s.upd i fun p => (p.setHead j.val { p.head j.val with sched := (p.head j.val).sched + 1 }).updWeir fun w =>
          { w with copies := w.copies ++ [(j.val, tick, atCopy p.cfg j.val)] }) (.head j.val) tick) ∧
      ((∀ tick, headTick (atHead p.cfg j.val) (halfOf s.now + 1) = some tick → (p.head j.val).st ≠ .armed ∨ ¬ booked (.head j.val) tick) →
        exec (.launchSend i (.head j)) s = .next s) ∧
      (r.actEn = true → (p.loop l.val).booked = true → booked (.loop l.val) q →
        (r.headOk p.cfg = true → sends (.launchSend i (.loop l)) counted (.loop l.val) q) ∧
        (r.headOk p.cfg = false → exec (.launchSend i (.loop l)) s = .next (counted.upd i fun p => (p.bump Reg.LOOP_MISS_CNT 15 0).evt Reg.LOOP_EVT 12))) ∧
      (r.actEn = false ∨ (p.loop l.val).booked = false ∨ ¬ booked (.loop l.val) q →
        exec (.launchSend i (.loop l)) s = .next s) ∧
      (∀ b, (p.weir.books.find? fun b => b.src == .intent port.val) = some b → halfOf b.tick ≤ halfOf s.now + 1 →
        sends (.launchSend i (.intent port)) s (.intent port.val) b.tick) ∧
      ((∀ b, (p.weir.books.find? fun b => b.src == .intent port.val) = some b → halfOf s.now + 1 < halfOf b.tick) → exec (.launchSend i (.intent port)) s = .next s))

/-- R28, R97, R100, R118, R137, R141, R149, R276, R288: the field side reaches the tick of a queued launch. One of a plane on whose blocks it
does not act is discarded and counted; a duplicate of one made already is dropped; with blocks missing, or with its path down, a command
breaks with cause 2 or 3 and a standing firing is missed, and no port changes. Otherwise a PSE change commands its port and no other, and
a frame goes out with its check sequence: either is DELIVERED in every running plane, and a head's firing is counted; a launch on an
uplink that is paused, in a switch-over gap or whose wire is busy, waits LAUNCHED, and one on a free uplink goes out; a CAN frame waits
LAUNCHED in a free transmit object, and with none free a command breaks with cause 6. Where the spec leaves it open, the model's choice:
assumption 10. It concludes that exec answers a next state for launchRelease. -/
def Obligations.ReleasedLaunchesActOrBreak : Prop :=
  ∀ (s : State) (i : PlaneId) (standing : Bool) (slot seq : Nat),
    let key (l : Launch) : Bool := l.is i standing slot seq s.now
    let others := s.fs.lq.filter fun l => !key l
    let ends (t : State) (st : SlotState) : Prop := ∀ j, (s.plane j).phase = .ready → let x := (s.plane j).slot slot
      (standing = false → x.st = .sent ∨ x.st = .booked → x.seq = seq → s.now ≤ x.launch →
        ((t.plane j).slot slot).st = st ∧ (st = .delivered → ((t.plane j).slot slot).doneAt = s.now)) ∧
      (standing = true → seq < 0x8000 → (t.plane j).rdF Reg.ACT_FIRE_CNT 15 0 = satInc 65535 ((s.plane j).rdF Reg.ACT_FIRE_CNT 15 0))
    let fails (t : State) (cause : Nat) : Prop := t.fs.ports = s.fs.ports ∧ t.fs.lq = others ∧ ∀ j, (s.plane j).phase = .ready →
      let x := (s.plane j).slot slot
      (standing = false → x.alive = true → x.seq = seq →
        ((t.plane j).slot slot).st = .broken ∧ ((t.plane j).slot slot).cause = cause ∧ ((t.plane j).slot slot).doneAt = s.now) ∧
      (standing = true → seq < 0x8000 → (t.plane j).rdF Reg.ACT_MISS_CNT 15 0 = satInc 65535 ((s.plane j).rdF Reg.ACT_MISS_CNT 15 0)) ∧
      (standing = true → 0x8000 ≤ seq → seq < 0x10000 → (t.plane j).rdF Reg.LOOP_MISS_CNT 15 0 = satInc 65535 ((s.plane j).rdF Reg.LOOP_MISS_CNT 15 0))
    ((s.fs.lq.find? fun l => key l && !l.released) = none → exec (.launchRelease i standing slot seq) s = .next s) ∧
    (∀ l, (s.fs.lq.find? fun l => key l && !l.released) = some l →
      let frame := l.payloads.flatten ++ leBytes 4 (crc32 l.payloads.flatten)
      let u := l.path - 0x200
      let ch := l.path - 0x300
      let acts : Prop := s.fs.au.actsAt i s.now = true
      let made : Prop := if standing then (seq, s.now) ∈ s.fs.made else (s.fs.ended slot seq s.now).isSome = true
      let down : Prop := pathFails s.fs l.path = true ∧ ¬ (standing = true ∧ 0x10000 ≤ seq)
      let good : Prop := acts ∧ ¬ made ∧ l.complete = true ∧ ¬ down
      let waits : Prop := (s.fs.uplink u).pauseUntil.isSome = true ∨ s.fs.inGap s.now = true ∨ s.ttNow + s.fs.tickNs ≤ s.wireAt (128 + u)
      (¬ acts → ∃ t, exec (.launchRelease i standing slot seq) s = .next t ∧ t.fs = { s.fs with lq := others, out := t.fs.out, lseqTx := t.fs.lseqTx } ∧
        t.plane i = ((s.plane i).bump Reg.LFAB_REJECT_CNT 15 0).evt Reg.LFAB_EVT 11 ∧ t.plane i.other = s.plane i.other) ∧
      (acts → made → exec (.launchRelease i standing slot seq) s = .next (s.field fun f => { f with lq := others })) ∧
      (acts → ¬ made → l.complete = false → ∃ t, exec (.launchRelease i standing slot seq) s = .next t ∧ fails t 2) ∧
      (acts → ¬ made → l.complete = true → down → ∃ t, exec (.launchRelease i standing slot seq) s = .next t ∧ fails t 3) ∧
      (good → 0x80 ≤ l.path → l.path < 0x180 →
        ∃ t, exec (.launchRelease i standing slot seq) s = .next t ∧ t.fs.lq = others ∧ ends t .delivered ∧
          (t.fs.port (l.path - 0x100)).cmd = ofLe (slice (l.payloads.headD []) 0 1) ∧ ∀ m, m ≠ l.path - 0x100 → t.fs.port m = s.fs.port m) ∧
      (good → l.path < 0x80 →
        ∃ t, exec (.launchRelease i standing slot seq) s = .next t ∧ t.fs.lq = others ∧ ends t .delivered ∧ t.fs.ports = s.fs.ports ∧
          t.fs.fab.sent = s.fs.fab.sent ++ [(l.path, frame)]) ∧
      (good → 0x200 ≤ l.path → l.path < 0x204 →
        (waits → ∃ t, exec (.launchRelease i standing slot seq) s = .next t ∧ ends t .launched ∧ t.fs.ports = s.fs.ports ∧
          t.fs.fab.sent = s.fs.fab.sent ∧ (t.fs.uplink u).held = (s.fs.uplink u).held ++ [(standing, slot, seq, s.now)]) ∧
        (¬ waits → (s.fs.uplink u).held = [] → (∀ m ∈ s.fs.lq, (m.standing, m.slot, m.seq, m.tick) = (standing, slot, seq, s.now) → m = l) →
          ∃ t, exec (.launchRelease i standing slot seq) s = .next t ∧ t.fs.lq = others ∧ ends t .delivered ∧ t.fs.ports = s.fs.ports ∧
            t.fs.fab.sent = s.fs.fab.sent ++ [(128 + u, frame)] ∧ (t.fs.uplink u).held = [])) ∧
      (good → 0x300 ≤ l.path →
        (∀ k, freeObj s.cfg ch (s.fs.chan ch) = some k →
          ∃ t, exec (.launchRelease i standing slot seq) s = .next t ∧ t.fs.lq = others ∧ ends t .launched ∧ t.fs.ports = s.fs.ports ∧
            ((t.fs.chan ch).obj k).st = .waiting ∧ ((t.fs.chan ch).obj k).msg = partsCan l.payloads) ∧
        (freeObj s.cfg ch (s.fs.chan ch) = none → ∃ t, exec (.launchRelease i standing slot seq) s = .next t ∧ fails t 6)))

/-- R98, R100, R111, R277: a LAUNCHED command whose transmission starts within its allowance is DELIVERED with the stamp of the start in every
running plane; a start reported later, or of another command, changes no plane. Once the allowance has passed the command breaks, with
cause 5 on a port or uplink and 6 on a CAN channel, and an uplink counts it; not before, and in no other state. Where the spec leaves it
open, the model's choice: assumption 31. It concludes that exec answers a next state for transmissionStart, allowanceExpiry. -/
def Obligations.StartsDeliverAndExpiredAllowancesBreak : Prop :=
  ∀ (s : State) (i : PlaneId) (n : Fin 256) (path seq : Nat),
    let p := s.plane i
    let x := p.slot n.val
    let within : Prop := s.now ≤ x.launch + allowance p.cfg x.path
    let starts : Prop := p.phase = .ready ∧ x.st = .launched ∧ x.seq = seq ∧ within
    let expires : Prop := p.phase = .ready ∧ x.st = .launched ∧ ¬ within
    (∃ t, exec (.transmissionStart path n.val seq) s = .next t ∧ t.fs.ports = s.fs.ports ∧ t.fs.au = s.fs.au ∧ (¬ starts → t.plane i = p) ∧
      (starts → ((t.plane i).slot n.val).st = .delivered ∧ ((t.plane i).slot n.val).doneAt = s.now ∧ ((t.plane i).slot n.val).done = true ∧
        (t.plane i).rdF Reg.CMD_EVT 8 8 = 1 ∧ (∀ b ∈ (t.plane i).weir.books, b.src ≠ .slot n.val) ∧
        ∀ m, m ≠ n.val → (t.plane i).slot m = p.slot m)) ∧
    (∃ t, exec (.allowanceExpiry n) s = .next t ∧ t.fs = s.fs ∧ (¬ expires → t.plane i = p) ∧
      (expires → ((t.plane i).slot n.val).st = .broken ∧ ((t.plane i).slot n.val).cause = (if x.path < 0x300 then 5 else 6) ∧
        ((t.plane i).slot n.val).doneAt = s.now ∧ (∀ m, m ≠ n.val → (t.plane i).slot m = p.slot m) ∧
        (0x200 ≤ x.path → x.path < 0x204 → (t.plane i).rdF (Reg.UPL_PAUSE_BROKEN (x.path - 0x200)) 15 0 =
          satInc 65535 (p.rdF (Reg.UPL_PAUSE_BROKEN (x.path - 0x200)) 15 0))))

/-- R28, R30, R119, R120, R120, R121, R124, R434, R435: on a link that is down no block arrives. A block that arrives at the field side with a
wrong CRC is answered with a negative acknowledgement; a good one acknowledges its sender and every block that it shows missing is asked
for; a launch block of a plane that holds the lease is queued, and one of another plane is counted and discarded. A block with a wrong CRC
at a plane is counted, and a report of a start takes effect. A negative acknowledgement is counted; its block goes again on the other live
link, or on its own where that is the only one, and after its third try, or with no link, it is lost and counted: a command's launch then
breaks with cause 2, its abort is answered ABORT_LATE, and a head's firing is missed. A link that goes down is shown and raises WARN.LFAB,
and every block on it goes on the other link or is lost; with the other still up no plane fault follows, and with both down the plane has
a fault. A link that is down already does not change. A link back up is shown, and with both up the warning clears, not before. INJECT
arms one bad block on its link. Where the spec leaves it open, the model's choice: assumptions 10, 30, 31. It concludes that exec answers
a next state for lfabBlockReceive, lfabNakReceive, linkDown, inject, linkUp. -/
def Obligations.LaunchFabricResendsAndItsLinks : Prop :=
  (∀ (s : State) (i : PlaneId) (link : Fin 2) (bytes : List Byte) (lseq : Nat),
    let p := s.plane i
    let up (l : Nat) : Prop := p.weir.linkUp.getD l false = true
    let exp := s.fs.expect i link.val
    let held := p.weir.tx.find? fun t => t.link == link.val && t.lseq == lseq
    (¬ up link.val → ∀ toField, exec (.lfabBlockReceive i toField link bytes) s = .next s) ∧
    (up link.val → blockRead bytes = none →
      exec (.lfabBlockReceive i true link bytes) s = .next ((s.field fun f => f.setExpect i link.val (exp + 1)).later (s.now + 1) (.lfabNakReceive i link exp)) ∧
      ∃ t, exec (.lfabBlockReceive i false link bytes) s = .next t ∧ t.fs.lq = s.fs.lq ∧ (t.plane i).weir.slots = p.weir.slots ∧
        (t.plane i).rdF (Reg.LFAB_CRC_RX link.val) 15 0 = satInc 65535 (p.rdF (Reg.LFAB_CRC_RX link.val) 15 0) ∧ t.plane i.other = s.plane i.other) ∧
    (∀ b, up link.val → blockRead bytes = some b →
      let gap := (b.lseq + 65536 - exp) % 65536
      (b.type = 1 ∨ b.type = 2 →
        ∃ t, exec (.lfabBlockReceive i true link bytes) s = .next t ∧ t.fs.ports = s.fs.ports ∧
          (∀ c ∈ (t.plane i).weir.tx, c ∈ p.weir.tx ∧ ¬ (c.link = link.val ∧ c.lseq = b.lseq)) ∧
          (gap < 32768 → ∀ k < gap, (s.now + 1, Instr.lfabNakReceive i (linkFin link.val) ((exp + k) % 65536)) ∈ t.fs.due) ∧
          (s.fs.au.actsAt i s.now = false → t.fs.lq = s.fs.lq ∧ (t.plane i).rdF Reg.LFAB_REJECT_CNT 15 0 = satInc 65535 (p.rdF Reg.LFAB_REJECT_CNT 15 0)) ∧
          (s.fs.au.actsAt i s.now = true → b.flags / 8 % 2 = 1 ∨ s.fs.ended b.slot b.seq s.now = none →
            ∃ l ∈ t.fs.lq, l.is i (b.flags / 8 % 2 == 1) b.slot b.seq b.stamp = true ∧ ∃ e ∈ l.parts, e.2 = b.payload.take e.2.length)) ∧
      (b.type = 0x82 → b.flags / 8 % 2 = 0 → ofLe (b.payload.take 1) = 2 → (∀ o ∈ s.fs.out, o.bytes ≠ bytes) → b.lseq = p.weir.lseqRx.getD link.val 0 →
        let x := p.slot b.slot
        x.st = .launched → x.seq = b.seq → ofLe (slice b.payload 8 8) ≤ x.launch + allowance p.cfg x.path →
        ∃ t, exec (.lfabBlockReceive i false link bytes) s = .next t ∧ ((t.plane i).slot b.slot).st = .delivered ∧
          ((t.plane i).slot b.slot).doneAt = ofLe (slice b.payload 8 8) ∧ t.plane i.other = s.plane i.other)) ∧
    (held = none → exec (.lfabNakReceive i link lseq) s = .next (s.upd i fun x => x.bump (Reg.LFAB_NAK link.val) 15 0)) ∧
    (∀ b, held = some b →
      (b.tries < 3 → up (1 - b.link) ∨ up b.link →
        ∃ t c, exec (.lfabNakReceive i link lseq) s = .next t ∧ c ∈ (t.plane i).weir.tx ∧ c.tries = b.tries + 1 ∧ c.src = b.src ∧
          (up (1 - b.link) → c.link = 1 - b.link) ∧ (¬ up (1 - b.link) → c.link = b.link) ∧
          (t.plane i).rdF (Reg.LFAB_NAK link.val) 15 0 = satInc 65535 (p.rdF (Reg.LFAB_NAK link.val) 15 0) ∧
          t.plane i.other = s.plane i.other ∧ (t.plane i).weir.slots = p.weir.slots ∧ t.fs.lq = s.fs.lq) ∧
      (∀ j, 3 ≤ b.tries ∨ (¬ up (1 - b.link) ∧ ¬ up b.link) → b.src = .head j → ofLe (b.bytes.take 1) ≠ 3 →
        ∃ t, exec (.lfabNakReceive i link lseq) s = .next t ∧
          (t.plane i).rdF Reg.LFAB_LOST_CNT 15 0 = satInc 65535 (p.rdF Reg.LFAB_LOST_CNT 15 0) ∧
          ∀ k, (s.plane k).phase = .ready → (t.plane k).rdF Reg.ACT_MISS_CNT 15 0 = satInc 65535 ((s.plane k).rdF Reg.ACT_MISS_CNT 15 0)) ∧
      (∀ n, 3 ≤ b.tries ∨ (¬ up (1 - b.link) ∧ ¬ up b.link) → b.src = .slot n →
        ∃ t, exec (.lfabNakReceive i link lseq) s = .next t ∧
          (t.plane i).rdF Reg.LFAB_LOST_CNT 15 0 = satInc 65535 (p.rdF Reg.LFAB_LOST_CNT 15 0) ∧
          (ofLe (b.bytes.take 1) ≠ 3 → ∀ j, (s.plane j).phase = .ready → ((s.plane j).slot n).alive = true →
            ((t.plane j).slot n).st = .broken ∧ ((t.plane j).slot n).cause = 2 ∧ ((t.plane j).slot n).doneAt = s.now) ∧
          (ofLe (b.bytes.take 1) = 3 → ((t.plane i).slot n).aborters = [] ∧ ∀ k ∈ (p.slot n).aborters, (t.plane i).prd k Reg.CMD_ABORT_RESULT = 3)))) ∧
  (∀ (s : State) (i : PlaneId) (tag : Tag) (link : Fin 2),
    let p := s.plane i
    let down := p.weir.linkUp.set link.val false
    let up := p.weir.linkUp.set link.val true
    (p.weir.linkUp.getD link.val false = false → exec (.linkDown i link) s = .next s) ∧
    (p.weir.linkUp.getD link.val false = true → down.any id = true → p.weir.linkUp.length = 2 →
      ∃ t, exec (.linkDown i link) s = .next t ∧ (t.plane i).weir.linkUp = down ∧ (t.plane i).rdF Reg.FAULT_WARN 0 0 = 1 ∧
        (t.plane i).rdF Reg.LFAB_LINK link.val link.val = 0 ∧ (t.plane i).rdF Reg.LFAB_STAT 8 8 = 1 ∧ (t.plane i).red = p.red ∧
        (∀ c ∈ (t.plane i).weir.tx, c.link ≠ link.val) ∧ ((∀ c ∈ p.weir.tx, c.tries < 3) → t.plane i.other = s.plane i.other)) ∧
    (p.weir.linkUp.getD link.val false = true → down.any id = false → p.weir.tx = [] → p.phase = .ready →
      ∃ t, exec (.linkDown i link) s = .next t ∧ (t.plane i).weir.linkUp = down ∧ (t.plane i).rdF Reg.FAULT_PLANE_FLT 7 7 = 1) ∧
    (∃ t, exec (.linkUp i link) s = .next t ∧ (t.plane i).weir.linkUp = up ∧ t.plane i.other = s.plane i.other ∧ t.fs = s.fs ∧
      (up.all id = true → (t.plane i).rdF Reg.FAULT_WARN 0 0 = 0) ∧ (up.all id = false → (t.plane i).rdF Reg.FAULT_WARN 0 0 = p.rdF Reg.FAULT_WARN 0 0)) ∧
    (s.writes i tag 0x1#4 Reg.LFAB_INJECT (w32 (link.val + 2)) →
      exec (.inject i tag link) s = .next (s.upd i fun p => p.updWeir fun w => { w with inject := some link.val })))

/-- R114, R111, R123: an abort by T0 or by the command's tag on the active plane ends a BOOKED command at once as ABORTED, marks a SENT one's
path PENDING until the field side answers, or ABORT_LATE with no live link, ends a LAUNCHED one as ABORT_LATE, and answers 4 for a FREE
slot and 3 for a final one; another tag, and a plane that is not active, is answered 5 and changes no slot. The field side's answer ends
the SENT command as ABORTED where the launch was removed and as ABORT_LATE where it was not, and answers every path that waits; the
standby takes an abort decided at once, and any other plane does not. A write of DONE_k frees each host slot in a final state whose bit is
1 and that the tag may see; a final slot of the Scan Engine only loses its DONE bit, and every other slot keeps what it holds. Where the
spec leaves it open, the model's choice: assumptions 31, 32, 58. It concludes that exec answers a next state for doneClear, abort,
abortReport, abortSync. -/
def Obligations.AbortsAndDoneClears : Prop :=
  (∀ (s : State) (i : PlaneId) (n : Fin 256) (tag : Tag) (removed : Bool) (answer : Fin 6) (stamp : Nat),
    let p := s.plane i
    let x := p.slot n.val
    let live : Prop := ∃ l < 2, p.weir.linkUp.getD l false = true
    let mine : Prop := p.isActive = true ∧ x.st ≠ .free ∧ (tag = 0 ∨ tag = x.tag)
    let rest (t : State) : Prop := (∀ m, m ≠ n.val → (t.plane i).slot m = p.slot m) ∧ t.plane i.other = s.plane i.other ∧ t.fs.lq = s.fs.lq
    (s.writes i tag 0x1#4 Reg.CMD_ABORT (w32 n.val) →
      (p.isActive = false → exec (.abort i tag n) s = .next (s.upd i fun p => p.pwr 0 Reg.CMD_ABORT_RESULT 5)) ∧
      (p.isActive = true → x.st = .free → exec (.abort i tag n) s = .next (s.upd i fun p => p.pwr 0 Reg.CMD_ABORT_RESULT 4)) ∧
      (p.isActive = true → x.st ≠ .free → tag ≠ 0 → tag ≠ x.tag →
        ∃ t, exec (.abort i tag n) s = .next t ∧ rest t ∧ (t.plane i).slot n.val = x ∧ (t.plane i).prd 0 Reg.CMD_ABORT_RESULT = 5 ∧
          (t.plane i).rdF Reg.ACCESS_VIOL_CNT 15 0 = satInc 65535 (p.rdF Reg.ACCESS_VIOL_CNT 15 0)) ∧
      (mine → x.st = .booked →
        ∃ t, exec (.abort i tag n) s = .next t ∧ rest t ∧ ((t.plane i).slot n.val).st = .aborted ∧ ((t.plane i).slot n.val).doneAt = s.now ∧
          (t.plane i).prd 0 Reg.CMD_ABORT_RESULT = 2 ∧ ∀ b ∈ (t.plane i).weir.books, b.src ≠ .slot n.val) ∧
      (mine → x.st = .sent → (∀ b ∈ p.weir.books, b.link < 2) →
        ∃ t, exec (.abort i tag n) s = .next t ∧ rest t ∧
          (x.aborters ≠ [] ∨ live → (t.plane i).slot n.val = { x with aborters := x.aborters.filter (fun k => k != 0) ++ [0] } ∧
            (t.plane i).prd 0 Reg.CMD_ABORT_RESULT = 1) ∧
          (x.aborters = [] → ¬ live → (t.plane i).slot n.val = x ∧ (t.plane i).prd 0 Reg.CMD_ABORT_RESULT = 3)) ∧
      (mine → x.st = .launched →
        ∃ t, exec (.abort i tag n) s = .next t ∧ rest t ∧ ((t.plane i).slot n.val).st = .abortLate ∧ (t.plane i).prd 0 Reg.CMD_ABORT_RESULT = 3) ∧
      (mine → x.st.final = true → exec (.abort i tag n) s = .next (s.upd i fun p => p.pwr 0 Reg.CMD_ABORT_RESULT 3))) ∧
    (∃ t, exec (.abortReport n removed) s = .next t ∧ t.fs = s.fs ∧ (p.phase ≠ .ready ∨ x.st = .free → t.plane i = p) ∧
      (p.phase = .ready → x.st ≠ .free →
        let gone : Prop := removed = true ∧ (x.st = .sent ∨ x.st = .booked)
        (x.alive = true → (gone → ((t.plane i).slot n.val).st = .aborted) ∧ (¬ gone → ((t.plane i).slot n.val).st = .abortLate) ∧
          ((t.plane i).slot n.val).doneAt = s.now) ∧
        (x.alive = false → (t.plane i).slot n.val = { x with aborters := [] }) ∧
        (∀ k ∈ x.aborters, (gone → (t.plane i).prd k Reg.CMD_ABORT_RESULT = 2) ∧ (¬ gone → (t.plane i).prd k Reg.CMD_ABORT_RESULT = 3)) ∧
        ∀ m, m ≠ n.val → (t.plane i).slot m = p.slot m)) ∧
    (∃ t, exec (.abortSync n answer stamp) s = .next t ∧ t.fs = s.fs ∧
      let takes : Prop := p.follows = true ∧ (answer = 2 ∨ answer = 3) ∧ x.alive = true
      (¬ takes → t.plane i = p) ∧
      (takes → ((t.plane i).slot n.val).st = (if answer = 2 then .aborted else .abortLate) ∧ ((t.plane i).slot n.val).doneAt = stamp ∧
        ∀ m, m ≠ n.val → (t.plane i).slot m = p.slot m))) ∧
  (∀ (s : State) (i : PlaneId) (tag : Tag) (k : Fin 8) (mask : Word), s.writes i tag 0xF#4 (Reg.CMD_DONE k.val) mask →
    let p := s.plane i
    ∃ t, exec (.doneClear i tag k mask) s = .next t ∧ t.plane i.other = s.plane i.other ∧ t.fs = s.fs ∧ (t.plane i).weir.books = p.weir.books ∧
      ∀ n, let x := p.slot n
        let freed : Prop := n / 32 = k.val ∧ bit mask (n % 32) = true ∧ (tag = 0 ∨ x.tag = tag) ∧ x.st.final = true
        let host : Prop := x.scan = none ∧ n < 256 - min 192 p.weir.scanSlots
        (¬ freed → (t.plane i).slot n = x) ∧ (freed → host → (t.plane i).slot n = {}) ∧ (freed → ¬ host → (t.plane i).slot n = { x with done := false }))

/-- R182: the apportionment of an interval's loss L. Over the 63 tags, with weights that are not negative and carries that sum to 0, the
shares sum to exactly L and the new carries sum to 0, whatever L is. Where the spec leaves it open, the model's choice: assumption 38. -/
def Obligations.ApportionedSharesSumToTheLoss : Prop :=
  ∀ (l : Int) (w carry : List Int), w.length = 63 → carry.length = 63 → (∀ x ∈ w, 0 ≤ x) → carry.sum = 0 →
    (apportion l w carry).1.length = 63 ∧ (apportion l w carry).1.sum = l ∧
    (apportion l w carry).2.length = 63 ∧ (apportion l w carry).2.sum = 0

/-- R152, R165, R168 to R170, R173, R175 to R177, R179, R415: a metering block of its tick: the AC block and the auxiliary blocks at every
tick, the port block of group n at the ticks n mod 16; any other payload has no effect. A plane that does not run takes none, and none
changes an energy register before the boundary. The AC block gives each phase its newest voltage, and each phase that is not faulted its
products; an auxiliary block gives each enabled channel that is not faulted its product with its phase's voltage, inverted as configured.
The port block gives each port of its group its readings at the field side and its values in every running plane, with products above the
no-load threshold accumulated, and no port of another group any. A plane takes a kind once a tick. A channel fault marks or clears its
channel in its plane alone, and sets EVT.CH_FAULT where that changes the channel's state. A calibration check counts; of an AC, neutral or
port channel a deviation above 0.1 % is drift, which counts, and above 1 % a fault; an auxiliary channel is faulted with a ones density
outside 5 % to 95 % or without activity; a channel that passes is faulted no longer, unless its modulator is. No other channel changes.
Where the spec leaves it open, the model's choice: assumption 38. It concludes that exec answers a next state for meterSample,
meterChannelFault, calibrationCheck. -/
def Obligations.MeterBlocksFaultsAndCalibration : Prop :=
  (∀ (s : State) (payload : List Byte),
    let n (o k : Nat) : Nat := ofLe (slice payload o k)
    let kind := n 0 1
    let block : Prop := kind = 0x10 ∨ kind = 0x11 ∨ kind = 0x12 ∨ (kind = 0x13 ∧ n 1 1 = s.now % 16)
    (¬ block → exec (.meterSample payload) s = .next s) ∧
    (block → ∃ t, exec (.meterSample payload) s = .next t ∧ t.now = s.now ∧
      t.fs = { s.fs with ports := t.fs.ports, out := t.fs.out, lseqTx := t.fs.lseqTx } ∧
      (kind ≠ 0x13 → t.fs.ports = s.fs.ports) ∧
      (kind = 0x13 → ∀ m : Fin 128, let x := s.fs.port m.val
        let v := n (2 + 4 * (m.val % 8)) 2
        let a := n (4 + 4 * (m.val % 8)) 2
        (m.val / 8 ≠ n 1 1 → t.fs.port m.val = x) ∧
        (m.val / 8 = n 1 1 → t.fs.port m.val =
          { x with mv := v, ma := a * 5 / 100, pSum := x.pSum + v * a, pCnt := x.pCnt + 1, volt := decide (44000 ≤ v) })) ∧
      ∀ i, let p := s.plane i
        let q := t.plane i
        (p.phase ≠ .ready → q = p) ∧ q.meter.energy = p.meter.energy ∧
        (p.phase = .ready → p.meter.got.contains kind = true → kind ≠ 0x13 → q = p) ∧
        (p.phase = .ready → p.meter.got.contains kind = false →
          (kind = 0x10 → ∀ k < 3, (q.meter.vHist.getD k []).headD 0 = sample24 payload 1 k ∧
            accOf q.meter.half k = if q.meter.bad k then accOf p.meter.half k else
              (accOf p.meter.half k).push (sample24 payload 1 k) ((p.meter.vHist.getD k []).getD 1023 0) (sample24 payload 1 (k + 3)) p.mpe.per) ∧
          (kind = 0x11 ∨ kind = 0x12 → ∀ j < 6, let c := (if kind = 0x11 then 0 else 6) + j
            let cfg := p.cfg (Reg.METER_AUX_CFG c)
            let hist := p.meter.vHist.getD (fld cfg 2 1) []
            let w := sample24 payload 1 j
            accOf q.meter.half (4 + c) = if bit cfg 0 = false ∨ q.meter.bad (0x100 + c) = true then accOf p.meter.half (4 + c) else
              (accOf p.meter.half (4 + c)).push (hist.getD 0 0) (hist.getD 1024 0) (if bit cfg 3 then -w else w) p.mpe.per) ∧
          (kind = 0x13 → ∀ m : Fin 128, let v := n (2 + 4 * (m.val % 8)) 2
            let a := n (4 + 4 * (m.val % 8)) 2
            let value (t : Plane) (c : Nat) : Int := Tab.get (fun _ => 0) t.meter.vals (0x2000 + 16 * m.val + c)
            let sum (t : Plane) : Nat := Tab.get (fun _ => 0) t.meter.portAcc m.val
            (m.val / 8 ≠ n 1 1 → value q 8 = value p 8 ∧ value q 9 = value p 9 ∧ value q 10 = value p 10 ∧ sum q = sum p) ∧
            (m.val / 8 = n 1 1 → value q 8 = ((v * 1000 : Nat) : Int) ∧ value q 9 = ((a * 5 : Nat) : Int) ∧ value q 10 = ((v * a / 20000 : Nat) : Int) ∧
              sum q = if q.meter.bad (0x200 + m.val) = true ∨ v * a < 20000 * fld (p.cfg (Reg.METER_PORT_NL m.val)) 15 0 then sum p
                else sum p + v * a * p.mpe.per))))) ∧
  (∀ (s : State) (i : PlaneId) (ch : BitVec 12) (on : Bool) (ppm : Int),
    let p := s.plane i
    let m := p.meter
    let aux : Prop := ch.toNat / 256 = 1
    let drift : Prop := ¬ aux ∧ (1000 < ppm ∨ ppm < -1000)
    let fails : Prop := (aux ∧ (ppm < 50000 ∨ 950000 < ppm ∨ m.faults.contains ch.toNat = true)) ∨ (¬ aux ∧ (10000 < ppm ∨ ppm < -10000))
    let kept (t : State) : Prop := t.plane i.other = s.plane i.other ∧ t.fs = s.fs ∧ (t.plane i).meter.energy = m.energy ∧
      (∀ c, c ≠ ch.toNat → (t.plane i).meter.bad c = m.bad c) ∧
      ((t.plane i).meter.bad ch.toNat ≠ m.bad ch.toNat → (t.plane i).rdF Reg.METER_EVT 8 8 = 1)
    (∃ t, exec (.meterChannelFault i ch on) s = .next t ∧ kept t ∧ (t.plane i).meter.bad ch.toNat = (on || m.calFault.contains ch.toNat)) ∧
    (∃ t, exec (.calibrationCheck i ch ppm) s = .next t ∧ kept t ∧
      (fails → (t.plane i).meter.bad ch.toNat = true) ∧ (¬ fails → (t.plane i).meter.bad ch.toNat = m.faults.contains ch.toNat) ∧
      (t.plane i).rdF Reg.METER_CAL_CNT 15 0 = satInc 65535 (p.rdF Reg.METER_CAL_CNT 15 0) ∧
      (drift → (t.plane i).rdF Reg.METER_CAL_FAIL_CNT 15 0 = satInc 65535 (p.rdF Reg.METER_CAL_FAIL_CNT 15 0) ∧ (t.plane i).rdF Reg.METER_EVT 9 9 = 1) ∧
      (¬ drift → (t.plane i).rdF Reg.METER_CAL_FAIL_CNT 15 0 = p.rdF Reg.METER_CAL_FAIL_CNT 15 0)))

/-- R180 to R182, R192: an interval closes at a tick 0 at which TT has reached the end of the interval, not before: the interval number
advances by one, the close is stamped, the loss of the interval, its AC import less its port and internal energy, goes to the loss
register and D_LOSS, and the tags' weights start again. A queued pulse starts once the gap after the last has passed, is counted and lasts
its width; it ends no sooner, and a new gap begins. It concludes that exec answers a next state for intervalClose, pulseStart, pulseEnd. -/
def Obligations.IntervalsCloseAndPulsesRun : Prop :=
  ∀ (s : State) (i : PlaneId) (n : Fin 8),
    let p := s.plane i
    let a := p.acct
    let x := s.fs.pulse n.val
    let width := max 1 (fld (s.cfg (Reg.PULSE_PO_CFG n.val)) 15 8) * 1000000
    let rise (r : Nat) : Int := p.meter.count r - Tab.get (fun _ => 0) p.meter.whole r
    let loss := rise 0x4002 - rise 0x4004 - rise 0x4007
    (a.running = true → s.now % 4096 = 0 → a.org + (a.idx + 1) * 1000000000 ≤ p.tt s.now →
      ∃ t, exec (.intervalClose i) s = .next t ∧ (t.plane i).acct.intv = a.intv + 1 ∧ (t.plane i).acct.idx = a.idx + 1 ∧
        (t.plane i).acct.w = [] ∧ (t.plane i).acct.aux = [] ∧ (t.plane i).rd64 Reg.TACC_CLOSE_AT = s.now % 2 ^ 64 ∧
        (t.plane i).rd64 Reg.TACC_INTV = (a.intv + 1) % 2 ^ 64 ∧ (t.plane i).meter.count 0x4008 = p.meter.count 0x4008 + loss ∧
        (t.plane i).rd Reg.TACC_D_LOSS = BitVec.ofNat 32 (toTwos 32 loss) ∧ (t.plane i).meter.count 0x4002 = p.meter.count 0x4002 ∧
        t.fs.ports = s.fs.ports ∧ t.fs.lq = s.fs.lq ∧ t.plane i.other = s.plane i.other) ∧
    (a.running = false ∨ s.now % 4096 ≠ 0 ∨ p.tt s.now < a.org + (a.idx + 1) * 1000000000 → exec (.intervalClose i) s = .next s) ∧
    (x.active = false → 0 < x.queued → x.until_ ≤ s.ttNow →
      exec (.pulseStart n) s = .next (s.field fun f => f.setPulse n.val
        { queued := x.queued - 1, made := (x.made + 1) % 2 ^ 32, active := true, until_ := s.ttNow + width })) ∧
    (x.active = true ∨ x.queued = 0 ∨ s.ttNow < x.until_ → exec (.pulseStart n) s = .next s) ∧
    (x.active = true → x.until_ ≤ s.ttNow → exec (.pulseEnd n) s = .next (s.field fun f => f.setPulse n.val
        { x with active := false, until_ := s.ttNow + width })) ∧
    (x.active = false ∨ s.ttNow < x.until_ → exec (.pulseEnd n) s = .next s)

/-- R217, R240 to R244: digests and the sync link. A running plane keeps its peer's digest; one that differs from its own of the same kind and
stamp is a mismatch with its kind, stamp and count, and one of an image that the plane's own scan has overrun is a mismatch in both
planes. A digest missing 256 ticks after its stamp, and a sync link that fails, take the link down; a link that is up again clears the
warning and changes no role. A heartbeat shows its sender's READY to the other plane. The self-checks decide after a mismatch: an active
plane that passes keeps the lease and a standby leaves step at the next boundary; one that fails beside a standby in step that passes
yields then; with no plane to trust the standby leaves step; each that fails is marked. That a stopped peer's missing digest changes no
role is the model's choice (assumption 34). Where the spec leaves it open, the model's choice: assumptions 10, 34, 40. It concludes that
exec answers a next state for digestReceive, digestTimeout, selfCheckResult, syncHeartbeat, syncDown, syncLinkUp. -/
def Obligations.DigestsAndTheSyncLink : Prop :=
  ∀ (s : State) (i : PlaneId) (k : Fin 4) (stamp : Nat) (d : Word) (activePass standbyPass : Bool),
    let p := s.plane i
    let o := s.plane i.other
    let own := p.red.mine.find? fun e => e.1 == k.val && e.2.1 == stamp
    let got := p.red.peer.any fun e => e.1 == k.val && e.2.1 == stamp
    let overrun : Prop := k = 0 ∧ p.overran stamp s.now = true
    let missing : Prop := p.phase = .ready ∧ got = false ∧ stamp + 256 ≤ s.now
    let beats : Prop := p.phase = .ready ∧ o.red.syncUp = true
    let differs (t : State) (j : PlaneId) (kind : Nat) : Prop := (t.plane j).rdF Reg.RED_MISMATCH 2 0 = kind + 1 ∧
      (t.plane j).rd64 Reg.RED_MISMATCH_AT = stamp % 2 ^ 64 ∧ (t.plane j).rdF Reg.RED_EVT 8 8 = 1 ∧ (t.plane j).red.judging = true ∧
      (t.plane j).rdF Reg.RED_MISMATCH_CNT 15 0 = satInc 65535 ((s.plane j).rdF Reg.RED_MISMATCH_CNT 15 0)
    (p.phase ≠ .ready → exec (.digestReceive i k stamp d) s = .next s) ∧
    (p.phase = .ready → (∀ e, own = some e → e.2.2 = d.toNat ∨ k = 3) → ¬ overrun →
      exec (.digestReceive i k stamp d) s = .next (s.upd i fun p => p.updRed fun r => { r with
        peer := (k.val, stamp, d.toNat) :: r.peer.filter fun e => e.1 != k.val })) ∧
    (∀ e, p.phase = .ready → own = some e → e.2.2 ≠ d.toNat → k.val < 3 →
      ∃ t, exec (.digestReceive i k stamp d) s = .next t ∧ differs t i k.val ∧ t.plane i.other = s.plane i.other ∧ t.fs = s.fs) ∧
    (p.phase = .ready → overrun → ∃ t, exec (.digestReceive i k stamp d) s = .next t ∧ (∀ j, differs t j 0) ∧ t.fs = s.fs) ∧
    (¬ missing → exec (.digestTimeout i k stamp) s = .next s) ∧
    (missing → ∃ t, exec (.digestTimeout i k stamp) s = .next t ∧ syncDropped s t) ∧
    (∃ t, exec .syncDown s = .next t ∧ syncDropped s t) ∧
    (∃ t, exec .syncLinkUp s = .next t ∧ t.fs = s.fs ∧ ∀ j, ((s.plane j).phase ≠ .ready → t.plane j = s.plane j) ∧
      ((s.plane j).phase = .ready → (t.plane j).red = { (s.plane j).red with syncUp := true, lastFrame := s.now } ∧ (t.plane j).rdF Reg.FAULT_WARN 5 5 = 0)) ∧
    (beats → exec (.syncHeartbeat i) s = .next (s.upd i.other fun x => (x.wrF Reg.RED_SYNC 1 1 1).updRed fun r => { r with lastFrame := s.now })) ∧
    (¬ beats → exec (.syncHeartbeat i) s = .next s) ∧
    (s.active? = none → exec (.selfCheckResult activePass standbyPass) s = .next s) ∧
    (s.active? = some i → s.bothRun →
      let a := activePass && p.selfPass
      let b := standbyPass && o.selfPass
      let judging := p.red.judging || o.red.judging
      let outcome := if a then 1 else if !b then 3 else if o.red.role = .standby then 2 else 0
      ∃ t, exec (.selfCheckResult activePass standbyPass) s = .next t ∧ (t.plane i).red.role = .active ∧ (outcome ≠ 2 → t.fs = s.fs) ∧
        (judging = true → ∀ j, (t.plane j).rdF Reg.RED_MISMATCH 11 10 = outcome ∧ (t.plane j).rdF Reg.RED_MISMATCH 8 8 = a.toNat ∧
          (t.plane j).rdF Reg.RED_MISMATCH 9 9 = b.toNat) ∧
        (a = false → (t.plane i).rdF Reg.FAULT_PLANE_FLT 9 9 = 1) ∧ (b = false → (t.plane i.other).rdF Reg.FAULT_PLANE_FLT 9 9 = 1) ∧
        (outcome ≠ 3 → (t.plane i.other).red.role = o.red.role) ∧
        (outcome = 1 → judging = true ∨ b = false → o.red.role = .standby → (t.plane i.other).red.leaveAt = some ((halfOf s.now + 1) * 2048)) ∧
        (outcome = 2 → ∀ j, (t.plane j).red.yield_ = some ((halfOf s.now + 1) * 2048)) ∧
        (outcome = 3 → (t.plane i.other).red.role = (if o.red.role = .standby then .resync else o.red.role)))

/-- R239, R256, R257, R346: joining. A healthy plane out of step, with an active plane of the same STEP_LVL and the sync link up, takes the
applied configuration and goes to RESYNC, phase 1; with another STEP_LVL the attempt fails; no other plane joins, and a failed attempt is
made again once its time has come. A half-cycle boundary ends the bulk phase with a cut at a scan boundary. At the cut the plane takes the
active plane's points, slots, scan state, meters and accounts; caught up at a boundary with a matching digest it is STANDBY, with a
differing one, or on a failure, the attempt is counted and due again after 10 s. In any other case nothing happens. Where the spec leaves
it open, the model's choice: assumption 34. It concludes that exec answers a next state for halfCycleBoundary, join, resyncCaughtUp,
resyncFail, resyncRetry, dynamicStateArrival. -/
def Obligations.JoiningTakesTheActivePlanesState : Prop :=
  ∀ (s : State) (i : PlaneId) (d : Word),
    let p := s.plane i
    let a := s.plane i.other
    let level (x : Plane) : Nat := (if x.boot.running = 0 then x.boot.fwA else x.boot.fwB).step
    let joins : Prop := p.phase = .ready ∧ p.start.pfAt = none ∧ p.start.restart = none ∧ p.healthy ∧ (p.red.role = .offline ∨ p.red.role = .resync) ∧
      p.red.phase = 0 ∧ p.red.syncUp = true ∧ a.isActive = true
    let arrives : Prop := p.red.role = .resync ∧ p.red.phase = 2 ∧ ∃ cut, p.red.joinCut = some cut ∧ cut ≤ s.now
    let ready : Prop := p.red.role = .resync ∧ p.red.phase = 3 ∧ s.now % 2048 = 0 ∧ (p.scan.st ≠ .running ∨ isScanHalf p.cfg (halfOf s.now) = true)
    let failed (t : State) (tt : Nat) : Prop := (t.plane i).red.role = .resync ∧ (t.plane i).red.phase = 0 ∧ (t.plane i).red.joinCut = none ∧
      (t.plane i).red.retryAt = some (tt + 10000000000) ∧ (t.plane i).rdF Reg.RED_EVT 16 16 = 1 ∧
      (t.plane i).rdF Reg.RED_RESYNC_CNT 15 0 = satInc 65535 (p.rdF Reg.RED_RESYNC_CNT 15 0) ∧ (t.plane i).applied = p.applied ∧
      t.plane i.other = a ∧ t.fs = s.fs
    (¬ joins → exec (.join i) s = .next s) ∧
    (joins → level p = level a →
      ∃ t, exec (.join i) s = .next t ∧ (t.plane i).red.role = .resync ∧ (t.plane i).red.phase = 1 ∧ (t.plane i).red.retryAt = none ∧
        (t.plane i).applied = a.applied ∧ (t.plane i).keys = p.keys ∧ (t.plane i.other).red = a.red ∧ (t.plane i.other).regs = a.regs ∧ t.fs = s.fs) ∧
    (joins → level p ≠ level a → ∃ t, exec (.join i) s = .next t ∧ failed t (p.tt s.now)) ∧
    ((∀ r, p.red.retryAt = some r → s.ttNow < r) → exec (.resyncRetry i) s = .next s) ∧
    (∀ r, p.red.retryAt = some r → r ≤ s.ttNow → exec (.resyncRetry i) s = exec (.join i) s) ∧
    (s.now % 2048 = 0 → p.phase = .ready → p.red.role = .resync → p.red.phase = 1 →
      ∃ t, exec .halfCycleBoundary s = .next t ∧ (t.plane i).red.phase = 2 ∧
        (t.plane i).red.joinCut = some (scanHalfFrom a.cfg (halfOf s.now + 1) * 2048)) ∧
    (arrives → ∃ t, exec (.dynamicStateArrival i) s = .next t ∧ (t.plane i).red = { p.red with phase := 3 } ∧ (t.plane i).points = a.points ∧
        (t.plane i).weir.slots = a.weir.slots ∧ (t.plane i).weir.books = a.weir.books ∧ (t.plane i).scan = a.scan ∧ (t.plane i).heads = a.heads ∧
        (t.plane i).loops = a.loops ∧ (t.plane i).meter = a.meter ∧ (t.plane i).acct = a.acct ∧ (t.plane i).pulses = a.pulses ∧
        (t.plane i).keys = p.keys ∧ (t.plane i).tarn = p.tarn ∧ (t.plane i).rtc = p.rtc ∧ t.plane i.other = a ∧ t.fs = s.fs) ∧
    (¬ arrives → exec (.dynamicStateArrival i) s = .next s) ∧
    (ready → p.joinDigest = d.toNat →
      ∃ t, exec (.resyncCaughtUp i d) s = .next t ∧ (t.plane i).red.role = .standby ∧ (t.plane i).red.phase = 0 ∧ (t.plane i).rdF Reg.RED_EVT 11 11 = 1 ∧
        (t.plane i).points = p.points ∧ (t.plane i).weir = p.weir ∧ t.plane i.other = a ∧ t.fs = s.fs) ∧
    (ready → p.joinDigest ≠ d.toNat → ∃ t, exec (.resyncCaughtUp i d) s = .next t ∧ failed t s.ttNow) ∧
    (¬ ready → exec (.resyncCaughtUp i d) s = .next s) ∧
    (p.red.role = .resync → p.red.phase ≠ 0 → ∃ t, exec (.resyncFail i) s = .next t ∧ failed t s.ttNow) ∧
    (p.red.role ≠ .resync ∨ p.red.phase = 0 → exec (.resyncFail i) s = .next s)

/-- R28, R192, R245, R247 to R249: the Authority Unit. A RENEW of the holder takes its parameters, moves the expiry to b + LEN half-cycles +
128 ticks and queues its pulses; a CLAIM is granted where the lease is vacant and no guard runs, with the claim stamp 256 ticks on; in
strict mode a holder's lease refuses both to the other plane, and in overlap mode a claim of the other plane makes it the holder beside
the old one. A RELEASE ends the lease at its stamp, one for later waits, and a block of a plane on which the field side does not act is
discarded and counted. At its expiry a lease ends with its queued launches from there on, and in strict mode a guard of a half-cycle
follows, after which the standby claims; an overlap ends with the old holder revoked; a standby that has seen no renewal claims. Every
change is reported to both planes. Where its time has not come, nothing happens. Where the spec leaves it open, the model's choice:
assumptions 10, 34. It concludes that exec answers a next state for renew, claim, release, leaseExpiry, guardExpiry, heartbeatLoss,
overlapMax. -/
def Obligations.TheAuthorityUnitGrantsOneLease : Prop :=
  ∀ (s : State) (i : PlaneId) (b : List Byte) (f : BlockFields),
    let u := s.fs.au
    let n (o k : Nat) : Nat := ofLe (slice f.payload o k)
    let op := n 0 1
    let taken : AuthUnit := { u with mode := n 1 1 % 2, len := n 2 1, ovl := n 4 2 }
    let lease := (halfOf s.now + n 2 1) * 2048 + 128
    let guard : Prop := ∃ g, u.guardEnd = some g ∧ s.now < g
    let refused (c : Instr) : Prop := ∃ t, exec c s = .next t ∧ planesKept s t ∧ t.fs.au = u ∧ leaseReported t 6
    let rejected (c : Instr) : Prop := ∃ t, exec c s = .next t ∧ planesKept s t ∧ t.fs.au = u ∧
      (t.plane i).rdF Reg.LFAB_REJECT_CNT 15 0 = satInc 65535 ((s.plane i).rdF Reg.LFAB_REJECT_CNT 15 0)
    let without (t : State) (j : PlaneId) (from_ : Nat) : Prop :=
      t.fs.lq = s.fs.lq.filter fun l => l.released || !(l.plane == j && decide (from_ ≤ l.tick))
    let ran : Prop := (u.old = some i ∧ u.oldExpiry ≤ s.now) ∨ (u.holder = some i ∧ u.expiry ≤ s.now)
    let beats : Prop := (s.plane i).phase = .ready ∧ (s.plane i).red.role = .standby ∧ u.mode = 1 ∧ (s.plane i).red.lastRenewed + 1536 ≤ s.now ∧
      (s.plane i).red.claiming = false
    (blockRead b = some f → f.type = 4 → (if f.flags / 2 % 2 = 1 then PlaneId.b else PlaneId.a) = i →
      (op ≠ 1 → ∃ t, exec (.renew b) s = .next t ∧ planesKept s t ∧ t.fs.au = u) ∧
      (op ≠ 2 → ∃ t, exec (.claim b) s = .next t ∧ planesKept s t ∧ t.fs.au = u) ∧
      (op ≠ 3 → ∃ t, exec (.release b) s = .next t ∧ planesKept s t ∧ t.fs.au = u) ∧
      (op = 1 →
        (u.holder = some i → ∃ t, exec (.renew b) s = .next t ∧ planesKept s t ∧ t.fs.au = { taken with expiry := lease } ∧ leaseReported t 1 ∧
          ∀ m < 8, (Tab.get (fun _ => {}) t.fs.pulses m : PulseOut).queued =
            (Tab.get (fun _ => {}) s.fs.pulses m : PulseOut).queued + min (n (16 + m) 1) (255 - (Tab.get (fun _ => {}) s.fs.pulses m : PulseOut).queued)) ∧
        (u.holder = some i.other → u.mode = 0 ∨ u.old = some i → refused (.renew b)) ∧
        (u.holder = none ∨ (u.holder = some i.other ∧ u.mode ≠ 0 ∧ u.old ≠ some i) → rejected (.renew b))) ∧
      (op = 2 →
        (u.holder = none → ¬ guard → ∃ t, exec (.claim b) s = .next t ∧ planesKept s t ∧ leaseReported t 2 ∧
          t.fs.au = { taken with holder := some i, expiry := lease, guardEnd := none, claimAt := s.now + 256 }) ∧
        (u.holder = some i.other → u.mode ≠ 0 → u.old = none → ∃ t, exec (.claim b) s = .next t ∧ planesKept s t ∧ leaseReported t 2 ∧
          t.fs.au = { taken with holder := some i, expiry := lease, guardEnd := none, claimAt := s.now + 256, old := some i.other,
                                 oldExpiry := u.expiry, overlapEnd := s.ttNow + n 4 2 * 10000 }) ∧
        ((u.holder = none ∧ guard) ∨ u.holder = some i ∨ (u.holder = some i.other ∧ (u.mode = 0 ∨ u.old ≠ none)) → refused (.claim b))) ∧
      (op = 3 →
        (u.holder ≠ some i → u.old ≠ some i → (∀ e, u.release = some e → s.now < e.2) → rejected (.release b)) ∧
        (u.holder = some i ∨ u.old = some i → s.now < n 8 8 → ∃ t, exec (.release b) s = .next t ∧ planesKept s t ∧
          t.fs.au = { u with release := some (i, n 8 8), releaseSeq := n 24 4 } ∧ t.fs.lq = s.fs.lq) ∧
        (u.holder = some i → u.old = none → n 8 8 ≤ s.now → ∃ t, exec (.release b) s = .next t ∧ planesKept s t ∧ without t i (n 8 8) ∧
          t.fs.au = { u with holder := none, guardEnd := none, vacantSince := s.now, release := none, releaseSeq := n 24 4 } ∧ leaseReported t 5))) ∧
    (blockRead b = none → ∀ c ∈ [Instr.renew b, .claim b, .release b], ∃ t, exec c s = .next t ∧ planesKept s t ∧ t.fs.au = u ∧ t.fs.lq = s.fs.lq) ∧
    (u.old = some i → u.oldExpiry ≤ s.now → ∃ t, exec (.leaseExpiry i) s = .next t ∧ planesKept s t ∧ t.fs.au = { u with old := none } ∧
      without t i u.oldExpiry ∧ leaseReported t 3) ∧
    (∀ j, u.holder = some i → u.expiry ≤ s.now → u.old = some j → j ≠ i → ∃ t, exec (.leaseExpiry i) s = .next t ∧ planesKept s t ∧
      t.fs.au = { u with holder := some j, expiry := u.oldExpiry, old := none } ∧ without t i u.expiry ∧ leaseReported t 3) ∧
    (u.holder = some i → u.old = none → u.expiry ≤ s.now → ∃ t, exec (.leaseExpiry i) s = .next t ∧ planesKept s t ∧ without t i u.expiry ∧
      t.fs.au = { u with holder := none, vacantSince := s.now, guardEnd := if u.mode = 0 then some (s.now + 2048) else none } ∧ leaseReported t 3) ∧
    (¬ ran → exec (.leaseExpiry i) s = .next s) ∧
    (u.old = none ∨ s.ttNow < u.overlapEnd → exec .overlapMax s = .next s) ∧
    (u.old = some i → u.overlapEnd ≤ s.ttNow → ∃ t, exec .overlapMax s = .next t ∧ planesKept s t ∧ t.fs.au = { u with old := none } ∧
      without t i s.now ∧ leaseReported t 4) ∧
    (u.guardEnd = none ∨ guard → exec .guardExpiry s = .next s) ∧
    (∀ g, u.guardEnd = some g → g ≤ s.now →
      ∃ t, exec .guardExpiry s = .next t ∧ t.fs.au = { u with guardEnd := none } ∧ t.fs.lq = s.fs.lq ∧
        ((s.plane i).phase ≠ .ready ∨ (s.plane i).red.role ≠ .standby ∨ (s.plane i).red.ownExpired = true → t.plane i = s.plane i) ∧
        ((s.plane i).phase = .ready → (s.plane i).red.role = .standby → (s.plane i).red.ownExpired = false → (s.plane i).liveLink.isSome = true →
          (t.plane i).red.claiming = true ∧ ∃ c, (s.now + 1, Instr.claim c) ∈ t.fs.due)) ∧
    (∃ t, exec .heartbeatLoss s = .next t ∧ t.fs.au = u ∧ t.fs.lq = s.fs.lq ∧ (¬ beats → t.plane i = s.plane i) ∧
      (beats → (t.plane i).red.heartClaim = true ∧
        ((s.plane i).liveLink.isSome = true → (t.plane i).red.claiming = true ∧ ∃ c, (s.now + 1, Instr.claim c) ∈ t.fs.due)))

/-- R239, R246 to R255, R260, R425: what the planes do with the lease. An active plane renews. RENEWED is noted by both planes; GRANTED makes
the named plane active with its claim stamp in both, and one that was standby counts the switch-over and the commands of class G0 whose
tick has passed break with cause 4; the end of its lease takes the active role from a plane, STANDBY where it was in step; a refused claim
ends the claiming. A plane that may claim a vacant lease claims it, and where there is a holder it joins. A Swap Drill is armed for a
half-cycle at least 8 on, can be cancelled up to a half-cycle before, sends the RELEASE in the half-cycle before D, and hands the lease
over at D; with no standby in step it is not made. What a plane sends goes over its live link; with none, or where its time has not come,
nothing happens. Where the spec leaves it open, the model's choice: assumptions 10, 34. It concludes that exec answers a next state for
renewSend, leaseReport, startClaim, drillArm, drillCancel, drill, delayedClaim. -/
def Obligations.PlanesFollowTheLease : Prop :=
  ∀ (s : State) (i : PlaneId) (r : List Byte) (stamp : Nat) (tag : Tag),
    let p := s.plane i
    let n (o k : Nat) : Nat := ofLe (slice r o k)
    let event := n 1 1
    let holder := n 2 1
    let seen := (s.plane s.lead).red.viewHolder
    let live : Prop := p.liveLink.isSome = true
    let claims (c : Instr) : Prop := (¬ live → exec c s = .next s) ∧ (live → ∃ t b, exec c s = .next t ∧ t.fs.au = s.fs.au ∧ (t.plane i).red.claiming = true ∧
      (t.plane i).red.role = p.red.role ∧ t.plane i.other = s.plane i.other ∧ (s.now + 1, Instr.claim b) ∈ t.fs.due)
    let idle : Prop := p.phase = .ready ∧ p.start.pfAt = none ∧ p.start.restart = none ∧ p.red.role = .offline ∧ p.healthy
    let allowed : Prop := p.red.ownExpired = false ∧ p.red.noAuth = false
    let first : Prop := p.mpe.timeValid = true ∧ p.start.zeroed = false ∧ ∃ v, p.red.validAt = some v ∧ (i = .a ∨ v + 8 * 2048 ≤ s.now)
    let later : Prop := ∃ v, p.start.validTt = some v ∧ v + 60000000000 ≤ p.tt s.now
    (p.isActive = false ∨ ¬ live → exec (.renewSend i) s = .next s) ∧
    (p.isActive = true → live → ∃ t c, exec (.renewSend i) s = .next t ∧ (s.now + 1, Instr.renew c) ∈ t.fs.due ∧ t.fs.au = s.fs.au ∧ t.fs.lq = s.fs.lq ∧
      (t.plane i).red.leaseSeq = (p.red.leaseSeq + 1) % 2 ^ 32 ∧ (t.plane i).red.role = .active ∧ t.plane i.other = s.plane i.other) ∧
    (event = 1 → ∃ t, exec (.leaseReport r stamp) s = .next t ∧ t.fs = s.fs ∧ (t.plane i).red.role = p.red.role ∧
      (p.phase = .ready → (t.plane i).red.lastRenewed = stamp ∧ (t.plane i).red.viewHolder = holder ∧ (t.plane i).rd64 Reg.RED_EXPIRY = n 8 8)) ∧
    (event = 2 → p.phase = .ready → (holder = i.num + 1 ∧ seen ≠ i.num + 1) ∨ (holder = 3 ∧ seen = i.other.num + 1) →
      ∃ t, exec (.leaseReport r stamp) s = .next t ∧ (t.plane i).red.role = .active ∧ t.fs.au = s.fs.au ∧
        (p.red.role = .standby → (t.plane i).rdF Reg.RED_SW_CNT 15 0 = satInc 65535 (p.rdF Reg.RED_SW_CNT 15 0) ∧ (t.plane i).rdF Reg.RED_EVT 9 9 = 1) ∧
        ∀ j, (s.plane j).phase = .ready → (t.plane j).red.noAuth = false ∧ (t.plane j).rd64 Reg.RED_CLAIM_AT = n 16 8 ∧
          (p.red.role = .standby → ∀ m, let x := (s.plane j).slot m
            x.st = .booked ∨ x.st = .sent → x.launch < n 16 8 → x.recovery = none →
              ((t.plane j).slot m).st = .broken ∧ ((t.plane j).slot m).cause = 4)) ∧
    (event = 3 ∨ event = 4 ∨ event = 5 → p.phase = .ready →
      ∃ t, exec (.leaseReport r stamp) s = .next t ∧ t.fs = s.fs ∧ (holder = 0 → (t.plane i).red.lostAt = some stamp) ∧
        (p.isActive = false → (t.plane i).red.role = p.red.role) ∧
        ((seen = i.num + 1 ∧ holder ≠ 3 ∧ holder ≠ i.num + 1) ∨ (seen = 3 ∧ holder = i.other.num + 1) → p.isActive = true →
          (t.plane i).red.role = (if ((s.plane i.other).red.role = .standby ∨ p.red.kept = true) ∧ p.red.yield_ = none then .standby else .offline) ∧
          (event = 3 → (t.plane i).red.ownExpired = true) ∧ (t.plane i.other).red.role = (s.plane i.other).red.role)) ∧
    (event = 6 → ∃ t, exec (.leaseReport r stamp) s = .next t ∧ t.fs = s.fs ∧ (t.plane i).red.claiming = false ∧ (t.plane i).red.role = p.red.role ∧
      (p.red.claiming = true → (t.plane i).rdF Reg.RED_EVT 15 15 = 1)) ∧
    (¬ idle → exec (.startClaim i) s = .next s ∧ exec (.delayedClaim i) s = .next s) ∧
    (idle → s.fs.au.holder ≠ none → exec (.startClaim i) s = exec (.join i) s ∧ (p.start.zeroed = true → exec (.delayedClaim i) s = exec (.join i) s)) ∧
    (p.start.zeroed = false → exec (.delayedClaim i) s = .next s) ∧
    (idle → s.fs.au.holder = none → allowed → first → claims (.startClaim i)) ∧
    (s.fs.au.holder = none → ¬ (allowed ∧ first) → exec (.startClaim i) s = .next s) ∧
    (idle → s.fs.au.holder = none → allowed → p.start.zeroed = true → later → claims (.delayedClaim i)) ∧
    (s.fs.au.holder = none → ¬ (allowed ∧ later) → exec (.delayedClaim i) s = .next s) ∧
    (s.writes i tag 0x1#4 Reg.RED_DRILL_CTRL 1 →
      let d := p.rd64 Reg.RED_DRILL_AT
      (p.isActive = true → d % 2048 = 0 → s.now + 8 * 2048 ≤ d → exec (.drillArm i tag) s =
        .next (s.updBoth fun p => (p.wrF Reg.RED_DRILL_CTRL 10 8 1).updRed fun r => { r with drill := some d })) ∧
      (p.isActive = false ∨ d % 2048 ≠ 0 ∨ d < s.now + 8 * 2048 → exec (.drillArm i tag) s =
        .next (s.upd i fun p => (p.err Reg.RED_PAGE).wrF Reg.RED_DRILL_CTRL 10 8 4))) ∧
    (s.writes i tag 0x1#4 Reg.RED_DRILL_CTRL 2 →
      (p.isActive = false → exec (.drillCancel i tag) s = .next (s.upd i fun p => (p.err Reg.RED_PAGE).wrF Reg.RED_DRILL_CTRL 10 8 4)) ∧
      (∀ d, p.isActive = true → p.red.drill = some d → s.now + 2048 < d → exec (.drillCancel i tag) s =
        .next (s.updBoth fun p => (p.wrF Reg.RED_DRILL_CTRL 10 8 5).updRed fun r => { r with drill := none })) ∧
      (p.isActive = true → (∀ d, p.red.drill = some d → d ≤ s.now + 2048) → exec (.drillCancel i tag) s = .next s)) ∧
    (s.active? = none → exec .drill s = .next s) ∧
    (s.active? = some i →
      (p.red.drill = none → exec .drill s = .next s) ∧
      ∀ d, p.red.drill = some d →
        (s.now + 2048 < d → exec .drill s = .next s) ∧
        (d ≤ s.now + 2048 → (s.plane i.other).red.role ≠ .standby → exec .drill s =
          .next ((s.updBoth fun p => (p.wrF Reg.RED_DRILL_CTRL 10 8 3).updRed fun r => { r with drill := none }).updAu fun u => { u with release := none })) ∧
        (d ≤ s.now + 2048 → s.now < d → (s.plane i.other).red.role = .standby → live →
          ∃ t c, exec .drill s = .next t ∧ (s.now + 1, Instr.release c) ∈ t.fs.due ∧ t.fs.au = s.fs.au ∧ t.plane i.other = s.plane i.other) ∧
        (d ≤ s.now → (s.plane i.other).red.role = .standby → s.fs.au.holder = some i → s.fs.au.old = none → s.fs.au.release = some (i, d) →
          (s.plane i.other).liveLink.isSome = true →
          ∃ t c, exec .drill s = .next t ∧ t.fs.au.holder = none ∧ t.fs.au.release = none ∧ (s.now + 1, Instr.claim c) ∈ t.fs.due ∧
            (t.plane i.other).red.claiming = true))

/-- R203, R205, R207, R218, R220: the commands of the Scan Engine. LOAD starts the check of the staged image and is refused while the engine
runs or is halted; a passed check installs the image that it checked and commits it, and a failed one changes no program. A start runs the
installed program where its worst case fits, is refused with 0x19 where it does not and with 0x1B where none is installed; STOP stops. A
plane for which the command is not next does not change. GO and a change item are configuration writes, ignored and counted on a plane
that is not active. Where the spec leaves it open, the model's choice: assumptions 39, 41. It concludes that exec answers a next state for
scanLoad, checkDone, startWarm, startCold, stop, go, chgItemWrite. -/
def Obligations.ScanEngineFollowsItsCommands : Prop :=
  ∀ (s : State) (i : PlaneId) (tag : Tag),
    let p := s.plane i
    let x := p.scan
    let idle : Prop := x.st = .empty ∨ x.st = .stopped
    let next (k : Nat) : Prop := p.phase = .ready ∧ x.cmd.head? = some k
    let kept (t : State) : Prop := t.now = s.now ∧ t.fs = s.fs ∧ (t.plane i).points = p.points ∧ (t.plane i).applied = p.applied
    let ignored : State := s.upd i fun p => (p.err Reg.SCAN_PAGE).evt Reg.SYS_EVT 11
    (∃ t, exec .scanLoad s = .next t ∧ kept t ∧ (¬ next 1 → t.plane i = p) ∧
      (next 1 → (t.plane i).scan.cmd = x.cmd.drop 1 ∧ (t.plane i).scan.prog = x.prog ∧ (t.plane i).scan.st = x.st ∧
        (idle → (t.plane i).scan.check = some (match x.staged with | none => (0x10, 0) | some b => loadCheck p.cfg b) ∧
          (t.plane i).scan.checking = x.staged ∧ (t.plane i).regs = p.regs) ∧
        (¬ idle → (t.plane i).rd Reg.SCAN_CHECK = 0x1A ∧ (t.plane i).rdF Reg.SCAN_EVT 8 8 = 1 ∧ (t.plane i).scan.check = x.check))) ∧
    (x.check = none → exec (.checkDone i) s = .next s) ∧
    (∀ res idx, x.check = some (res, idx) → ∃ t, exec (.checkDone i) s = .next t ∧ kept t ∧ t.plane i.other = s.plane i.other ∧
      (t.plane i).scan.check = none ∧ (t.plane i).rdF Reg.SCAN_EVT 8 8 = 1 ∧
      (idle → res = 1 → (t.plane i).scan.prog = x.checking ∧ (t.plane i).scan.staged = (if x.staged = x.checking then none else x.staged) ∧
        (t.plane i).scan.st = .stopped ∧ (t.plane i).rd Reg.SCAN_CHECK = 1 ∧ (t.plane i).rd Reg.SCAN_WCET = BitVec.ofNat 32 (progWcet (x.checking.getD [])) ∧
        (t.plane i).rd64 Reg.SCAN_PROG_ID = progId (x.checking.getD []) % 2 ^ 64 ∧ (t.plane i).tarn.obj progPage = .program (x.checking.getD []) [] ∧
        progPage ∈ (t.plane i).tarn.next) ∧
      (¬ idle ∨ res ≠ 1 → (t.plane i).scan.prog = x.prog ∧ (t.plane i).scan.staged = x.staged ∧ (t.plane i).scan.st = x.st ∧ (t.plane i).tarn = p.tarn ∧
        (t.plane i).rd Reg.SCAN_CHECK = BitVec.ofNat 32 (if x.st = .running ∨ x.st = .halted then 0x1A else res + 65536 * idx))) ∧
    (∀ (warm : Bool), ∃ t, exec (if warm then .startWarm else .startCold) s = .next t ∧ kept t ∧ (¬ next (if warm then 2 else 3) → t.plane i = p) ∧
      (next (if warm then 2 else 3) → (t.plane i).scan.prog = x.prog ∧ (t.plane i).scan.cmd = x.cmd.drop 1 ∧
        (x.prog = none → (t.plane i).scan.st = x.st ∧ (t.plane i).rd Reg.SCAN_CHECK = 0x1B ∧ (t.plane i).rdF Reg.SCAN_EVT 8 8 = 1) ∧
        (∀ b, x.prog = some b →
          (x.st = .running → (t.plane i).scan = { x with cmd := x.cmd.drop 1 } ∧ (t.plane i).regs = p.regs) ∧
          (x.st ≠ .running → progWcet b ≤ scanLimit (scanPeriod p.cfg) → (t.plane i).scan.st = .running ∧ (t.plane i).scan.start = some warm ∧
            (t.plane i).rdF Reg.SCAN_EVT 9 9 = 1 ∧ (t.plane i).rdF Reg.FAULT_WARN 1 1 = 0) ∧
          (x.st ≠ .running → scanLimit (scanPeriod p.cfg) < progWcet b → (t.plane i).scan.st = x.st ∧ (t.plane i).rd Reg.SCAN_CHECK = 0x19 ∧
            (t.plane i).rdF Reg.SCAN_EVT 8 8 = 1)))) ∧
    (∃ t, exec .stop s = .next t ∧ kept t ∧ (¬ next 4 → t.plane i = p) ∧
      (next 4 → (t.plane i).scan.prog = x.prog ∧ (t.plane i).scan.cmd = x.cmd.drop 1 ∧
        (idle → (t.plane i).scan.st = x.st ∧ (t.plane i).regs = p.regs) ∧
        (¬ idle → (t.plane i).scan.st = .stopped ∧ (t.plane i).rdF Reg.SCAN_EVT 10 10 = 1 ∧ (t.plane i).rdF Reg.FAULT_WARN 1 1 = 0) ∧
        (x.st = .running → (t.plane i).scan.stateClock = (s.plane s.lead).clockRead s.now))) ∧
    (∀ n : Fin 128, s.writes i tag 0x3#4 Reg.SCAN_CHG_CTRL (w32 (n.val + 256)) →
      (p.isActive = true → ∃ t, exec (.go i tag n) s = .next t ∧ configTaken s t i [(Reg.SCAN_CHG_CTRL, 0x17F#32, w32 (n.val + 256))]) ∧
      (p.isActive = false → exec (.go i tag n) s = .next ignored)) ∧
    (∀ (k : Fin 64) (be : BitVec 4) (high : Word), s.writes i tag be (Reg.SCAN_CHG k.val + 4) high → be ≠ 0 →
      (p.isActive = true → ∃ t, exec (.chgItemWrite i tag be k high) s = .next t ∧ ((t.plane i).heldLow 0 (Reg.SCAN_CHG k.val)).1 = 0 ∧
        configTaken s t i ((if (p.heldLow 0 (Reg.SCAN_CHG k.val)).1 = 0 then [] else [(Reg.SCAN_CHG k.val, p.heldLow 0 (Reg.SCAN_CHG k.val))]) ++
          [(Reg.SCAN_CHG k.val + 4, beMask be, high)])) ∧
      (p.isActive = false → exec (.chgItemWrite i tag be k high) s = .next ignored))

/-- R207 to R209, R214, R216, R217: a scan runs at a scan boundary of a plane whose data path has started, and nowhere else: it counts in
SCANS, its output image waits for SCAN_COMPLETE, and at the half-cycle boundary after that the image is submitted: marker words become
visible to kind 10 points, and its commands wait for Weir on the active plane and the standby and fill no slot themselves. A start takes
place at its first scan boundary. A scan still running at the next scan boundary is an overrun, whose image is dropped; the next scan
starts there, and the fourth in a row halts the engine. SCAN_COMPLETE and a submission with no image to act on, or away from a boundary,
change nothing. Where the spec leaves it open, the model's choice: assumptions 40, 41. It concludes that exec answers a next state for
scanBoundary, scanComplete, scanImageSubmit. -/
def Obligations.ScansRunAtTheirBoundaries : Prop :=
  ∀ (s : State) (i : PlaneId) (ns : Nat),
    let p := s.plane i
    let x := p.scan
    let runs : Prop := s.now % 2048 = 0 ∧ p.live = true ∧ p.dataPath = true ∧ isScanHalf p.cfg (halfOf s.now) = true
    let alone (t : State) : Prop := t.plane i.other = s.plane i.other ∧ t.now = s.now
    let ran (t : State) (n : Nat) : Prop := (t.plane i).rd Reg.SCAN_SCANS = BitVec.ofNat 32 (n + 1) ∧ (t.plane i).rd64 Reg.SCAN_LAST_START = s.now % 2 ^ 64 ∧
      (t.plane i).scan.st = .running ∧ ∃ im, (t.plane i).scan.image = some im ∧ im.start = s.now ∧ im.complete = false
    let scans := (p.rd Reg.SCAN_SCANS).toNat
    (¬ runs → exec (.scanBoundary i) s = .next s) ∧
    (runs → ∃ t, exec (.scanBoundary i) s = .next t ∧ alone t ∧ t.fs = s.fs ∧ (t.plane i).points = p.points ∧ (t.plane i).weir.books = p.weir.books ∧
      (x.st ≠ .running → (t.plane i).scan.st = x.st ∧ (t.plane i).scan.image = x.image ∧ (t.plane i).rd Reg.SCAN_SCANS = p.rd Reg.SCAN_SCANS) ∧
      (x.st = .running → x.start = none → x.image = none → ran t scans) ∧
      (x.st = .running → x.start = none → ∀ im, x.image = some im → im.complete = true →
        (t.plane i).scan.image = some im ∧ (t.plane i).rd Reg.SCAN_SCANS = p.rd Reg.SCAN_SCANS) ∧
      (∀ warm, x.st = .running → x.start = some warm → x.image = none → ran t 0 ∧ (t.plane i).scan.start = none ∧ (t.plane i).scan.consec = 0 ∧
        (warm = false → (t.plane i).rdF Reg.SCAN_STAT 13 12 = 1) ∧
        (warm = true → ∀ k, x.stateId = some k → k = progId (x.prog.getD []) ∨ x.recalled = false → (t.plane i).rdF Reg.SCAN_STAT 13 12 = 2) ∧
        (warm = true → (∀ k, x.stateId = some k → k ≠ progId (x.prog.getD []) ∧ x.recalled = true) → (t.plane i).rdF Reg.SCAN_STAT 13 12 = 3)) ∧
      (x.st = .running → x.start = none → ∀ im, x.image = some im → im.complete = false → (t.plane i).scan.consec = x.consec + 1 ∧
        (t.plane i).rdF Reg.SCAN_OVR_CNT 15 0 = satInc 65535 (p.rdF Reg.SCAN_OVR_CNT 15 0) ∧ (t.plane i).rdF Reg.SCAN_EVT 12 12 = 1 ∧
        (x.consec < 3 → ran t scans) ∧
        (3 ≤ x.consec → (t.plane i).scan.st = .halted ∧ (t.plane i).scan.image = none ∧ (t.plane i).rdF Reg.SCAN_EVT 11 11 = 1 ∧
          (t.plane i).rdF Reg.FAULT_WARN 1 1 = 1))) ∧
    (∀ im, x.image = some im → im.complete = false → ∃ t, exec (.scanComplete i ns) s = .next t ∧ alone t ∧ t.fs = s.fs ∧
      (t.plane i).scan.image = some { im with complete := true, doneAt := s.now } ∧ (t.plane i).scan.consec = 0 ∧
      (t.plane i).rd Reg.SCAN_LAST_TIME = BitVec.ofNat 32 ns ∧
      (t.plane i).rd Reg.SCAN_MAX_TIME = BitVec.ofNat 32 (max ns (p.rd Reg.SCAN_MAX_TIME).toNat) ∧ (t.plane i).points = p.points ∧
      (if x.commitTt + max 1 (p.cfgF Reg.SCAN_CFG 31 24) * 1000000000 ≤ p.tt s.now then
        (t.plane i).tarn.obj areaPage = .scan x.retained x.state (x.stateId.getD 0) (p.tt s.now) none false ∧ (t.plane i).scan.commitTt = p.tt s.now
      else (t.plane i).tarn = p.tarn ∧ (t.plane i).scan.commitTt = x.commitTt)) ∧
    (x.image = none ∨ (∃ im, x.image = some im ∧ im.complete = true) → exec (.scanComplete i ns) s = .next s) ∧
    (∀ im, x.image = some im → im.complete = true → s.now % 2048 = 0 → p.phase = .ready → ∃ t, exec (.scanImageSubmit i) s = .next t ∧ alone t ∧
      (t.plane i).scan.image = none ∧ (t.plane i).scan.lastDone = s.now ∧ (t.plane i).weir.slots = p.weir.slots ∧ (t.plane i).weir.books = p.weir.books ∧
      (t.plane i).scan.digest = crc32c (t.plane i).scan.stored ∧
      (∀ k < 8192, (p.pm k).kind = 10 → ((t.plane i).point k).value = Tab.get (fun _ => 0) x.markers (p.pm k).src ∧ ((t.plane i).point k).qual = 1) ∧
      (p.isActive = true ∨ p.red.role = .standby → ∃ subs, (t.plane i).weir.scanQ = p.weir.scanQ ++ subs ∧ ∀ q ∈ subs, q.path = 9) ∧
      (p.isActive = false → p.red.role ≠ .standby → (t.plane i).weir.scanQ = p.weir.scanQ)) ∧
    (x.image = none ∨ (∃ im, x.image = some im ∧ im.complete = false) ∨ s.now % 2048 ≠ 0 ∨ p.phase ≠ .ready → exec (.scanImageSubmit i) s = .next s)

/-- R226 to R228, R230 to R233, R235 to R237: the Loop Engine. At a quarter-cycle boundary every loop that samples takes its requests and, in
AUTO or MANUAL, forms its next output within its limits, MAN in MANUAL; 24 ticks later the outputs are published at once, unless a fault
has stalled a sample: that is discarded and counted, and the fourth in a row puts the loop in HOLD. A loop in HOLD or REFUSED waits for
REARM, and no other loop changes. A record's last word completes it: it is queued whole, or refused with its reason; a section's last word
does the same. SWAP, CLEAR and REARM are configuration writes of the selected loop; a second SWAP while one waits is left out of its group
and counted. A plane that is not active ignores and counts all of these. Where the spec leaves it open, the model's choice: assumption 42.
It concludes that exec answers a next state for loopSample, loopRecordWrite, loopSectionWrite, swap, clear, rearm. -/
def Obligations.LoopsSampleAndTakeTheirRecords : Prop :=
  ∀ (s : State) (i : PlaneId) (tag : Tag) (be : BitVec 4) (data : Word) (stalled : List (Fin 512)),
    let p := s.plane i
    let runs : Prop := p.phase = .ready ∧ p.dataPath = true
    let alone (t : State) : Prop := t.plane i.other = s.plane i.other ∧ t.now = s.now
    let y (t : State) (l : Nat) : LoopSt := (t.plane i).loop l
    let sel := p.prdF 0 Reg.LOOP_L_SEL 8 0
    let slot := fld (p.prd 0 Reg.LOOP_S_SEL) 11 0
    let bank := fld (p.prd 0 Reg.LOOP_S_SEL) 16 16
    let rec_ (k : Nat) : Word := let old := p.bufWord 0 3 sel k fun k => p.rd (loopRec sel k); if k = 5 then merge (beMask be) old data else old
    let sec (k : Nat) : Word := let old := p.bufWord 0 5 (2 * slot + bank) k fun k => p.rd (secWord slot bank k)
      if k = 5 then merge (beMask be) old data else old
    let ignored : State := s.upd i fun p => (p.err 0x29).evt Reg.SYS_EVT 11
    let pending : Prop := (p.loop sel).swap.isSome = true ∨ ∃ q ∈ p.cfgQ, q.addr = loopCtlAddr sel ∧ bit (q.mask &&& q.data) 0 = true ∧
      ∃ g ∈ p.grps, g.id = q.grp ∧ g.rel.isSome = true
    (¬ runs ∨ (s.now % 1024 = 0 ∧ p.start.pfAt ≠ none) → exec (.loopSample i stalled) s = .next s) ∧
    (runs → p.start.pfAt = none → s.now % 1024 = 0 → ∃ t, exec (.loopSample i stalled) s = .next t ∧ alone t ∧ t.fs = s.fs ∧
      ∀ l < 512, let x := p.loop l; let r := loopRecOf p.cfg l; let mode := match x.call with | some c => c.1 == 1 | none => r.mode
        let run : LoopState := if mode then .manual else .auto
        (loopSamples p.cfg l (s.now / 1024) = false → y t l = x) ∧
        (loopSamples p.cfg l (s.now / 1024) = true → (y t l).out = x.out ∧ (y t l).swap = none ∧ (y t l).clear = false ∧ (y t l).call = none ∧
          (y t l).bank = (if x.swap = none then x.bank else 1 - x.bank) ∧
          (x.rearm = false → x.st = .hold ∨ x.st = .refused → (y t l).st = x.st ∧ (y t l).next = x.next) ∧
          (x.st = .off ∨ (x.rearm = true ∧ x.st = .refused) → (y t l).st = run ∨ ((y t l).st = .refused ∧ (y t l).next = x.next)) ∧
          ((x.rearm = true ∧ x.st = .hold) ∨ x.st = .auto ∨ x.st = .manual → (y t l).st = run ∧ (x.st = .hold → (y t l).consec = 0) ∧
            ∃ n, (y t l).next = some n ∧ n.at_ = s.now ∧ n.was = x.st ∧ n.stalled = false ∧
              (mode = true → x.call = none → n.out = max r.lo (min r.man r.hi)) ∧
              (mode = true ∨ n.frozen = false → r.lo ≤ r.hi → r.lo ≤ n.out ∧ n.out ≤ r.hi)))) ∧
    (runs → s.now % 1024 = 24 → ∃ t, exec (.loopSample i stalled) s = .next t ∧ alone t ∧
      ∀ l : Fin 512, let x := p.loop l.val
        (x.next = none → (y t l).out = x.out ∧ (y t l).next = none ∧ (y t l).consec = x.consec ∧ (y t l).st = x.st) ∧
        (∀ n, x.next = some n → n.stalled = false → l ∉ stalled → (y t l).out = n.out ∧ (y t l).next = none ∧ (y t l).consec = 0 ∧
          (y t l).lastAt = n.at_ ∧ (y t l).st = x.st) ∧
        (∀ n, x.next = some n → n.stalled = true ∨ l ∈ stalled → (y t l).out = x.out ∧ (y t l).next = none ∧ (y t l).consec = x.consec + 1 ∧
          (y t l).ovr = satInc 65535 x.ovr ∧ (y t l).st = if 3 ≤ x.consec then .hold else x.st)) ∧
    (runs → s.now % 1024 ≠ 0 → s.now % 1024 ≠ 24 → ∃ t, exec (.loopSample i stalled) s = .next t ∧ alone t ∧ t.fs = s.fs ∧
      ∀ l : Fin 512, y t l = if l ∈ stalled then { p.loop l.val with next := (p.loop l.val).next.map fun n => { n with stalled := true } } else p.loop l.val) ∧
    (s.writes i tag be (Reg.LOOP_LCFG 5) data → be ≠ 0 →
      (p.isActive = true → loopReason p.rd p.cfg sel rec_ = 0 → ∃ t, exec (.loopRecordWrite i tag be data) s = .next t ∧
        configTaken s t i ((List.range 6).map fun k => (loopRec sel k, 0xFFFFFFFF#32, rec_ k)) ∧
        (p.cfgQ.length + 6 ≤ 1024 → ∀ b ∈ ((t.plane i).path 0).bufs, b.1 ≠ 3)) ∧
      (p.isActive = true → loopReason p.rd p.cfg sel rec_ ≠ 0 → ∃ t, exec (.loopRecordWrite i tag be data) s = .next t ∧
        (t.plane i).rd Reg.LOOP_BAD = BitVec.ofNat 32 (sel + 65536 * loopReason p.rd p.cfg sel rec_) ∧ (t.plane i).rdF Reg.LOOP_EVT 8 8 = 1 ∧
        (∀ b ∈ ((t.plane i).path 0).bufs, b.1 ≠ 3) ∧ (t.plane i).cfgQ = p.cfgQ ∧ (t.plane i).applied = p.applied) ∧
      (p.isActive = false → exec (.loopRecordWrite i tag be data) s = .next ignored)) ∧
    (s.writes i tag be Reg.LOOP_SHIFTS data → be ≠ 0 →
      (p.isActive = true → p.sectionReason slot bank (sec 5) = 0 → ∃ t, exec (.loopSectionWrite i tag be data) s = .next t ∧
        configTaken s t i ((List.range 6).map fun k => (secWord slot bank k, 0xFFFFFFFF#32, sec k)) ∧
        (p.cfgQ.length + 6 ≤ 1024 → ∀ b ∈ ((t.plane i).path 0).bufs, b.1 ≠ 5)) ∧
      (p.isActive = true → p.sectionReason slot bank (sec 5) ≠ 0 → ∃ t, exec (.loopSectionWrite i tag be data) s = .next t ∧
        (t.plane i).rd Reg.LOOP_BAD = BitVec.ofNat 32 (slot + 65536 * p.sectionReason slot bank (sec 5) + 2 ^ 24) ∧ (t.plane i).rdF Reg.LOOP_EVT 8 8 = 1 ∧
        (∀ b ∈ ((t.plane i).path 0).bufs, b.1 ≠ 5) ∧ (t.plane i).cfgQ = p.cfgQ ∧ (t.plane i).applied = p.applied) ∧
      (p.isActive = false → exec (.loopSectionWrite i tag be data) s = .next ignored)) ∧
    (p.isActive = true →
      (∀ reset, s.writes i tag 0x1#4 Reg.LOOP_L_CTRL (w32 (1 + 2 * b1 reset)) → ∃ t, exec (.swap i tag reset) s = .next t ∧
        (¬ pending ∨ p.rdF Reg.SYS_CFG_CTRL 0 0 = 1 → configTaken s t i [(loopCtlAddr sel, 0xF#32, w32 (1 + 2 * b1 reset))]) ∧
        (pending → p.rdF Reg.SYS_CFG_CTRL 0 0 = 0 → configTaken s t i [(loopCtlAddr sel, 0xC#32, w32 (1 + 2 * b1 reset))] ∧
          (p.cfgQ.length < 1024 → (t.plane i).rdF 0x29018 15 0 = satInc 65535 (p.rdF 0x29018 15 0)))) ∧
      (s.writes i tag 0x1#4 Reg.LOOP_L_CTRL 4 → ∃ t, exec (.clear i tag) s = .next t ∧ configTaken s t i [(loopCtlAddr sel, 0xF#32, 4)]) ∧
      (s.writes i tag 0x1#4 Reg.LOOP_L_CTRL 8 → ∃ t, exec (.rearm i tag) s = .next t ∧ configTaken s t i [(loopCtlAddr sel, 0xF#32, 8)])) ∧
    (p.isActive = false →
      (∀ reset, s.writes i tag 0x1#4 Reg.LOOP_L_CTRL (w32 (1 + 2 * b1 reset)) → exec (.swap i tag reset) s = .next ignored) ∧
      (s.writes i tag 0x1#4 Reg.LOOP_L_CTRL 4 → exec (.clear i tag) s = .next ignored) ∧
      (s.writes i tag 0x1#4 Reg.LOOP_L_CTRL 8 → exec (.rearm i tag) s = .next ignored))

/-- R266 to R271, R274, R276, R278, R279: a received frame is checked in order for length, alignment and check sequence, and each failure
drops it with its own cause; PAUSE is acted on where it is negotiated and any other control frame is dropped; peer delay messages are
consumed, and other frames to reserved addresses, and frames outside their port's VLAN, are filtered. An uplink that does not forward the
VLAN discards its frames uncounted. Any other frame teaches its source, meets the wake filters, and goes to the learned egress of its
destination, or to every egress of its VLAN where the destination is not known: there it waits behind a pause, a busy wire or a closed
gate, starts at once where nothing holds it, and is dropped where the egress share is full. A learned entry ages out after AGE seconds,
and not before; an expired pause ends. Where the spec leaves it open, the model's choice: assumptions 36, 57. It concludes that exec
answers a next state for frameReceive, fdbAgeExpiry, pauseReceive, pauseExpiry. -/
def Obligations.FramesAreCheckedLearnedAndForwarded : Prop :=
  ∀ (s : State) (port : Fin 132) (f : List Byte) (aligned : Bool) (full : List (Fin 132)) (quanta : BitVec 16),
    let n := port.val
    let src := ofBe (slice f 6 6)
    let dst := ofBe (slice f 0 6)
    let run := exec (.frameReceive port f aligned full) s
    let drops (cause : Nat) : Prop := ∃ t, run = .next t ∧ droppedAs s t n cause
    let sized : Prop := 64 ≤ f.length ∧ f.length ≤ 1522
    let whole : Prop := aligned = true ∨ 128 ≤ n ∨ (s.fs.port n).speed ≠ 100
    let good : Prop := sized ∧ whole ∧ fcsOk f = true
    let field (k : Nat) : Nat := ofBe (slice f (if (frameTag f).isSome then k + 4 else k) 2)
    let delay : Prop := dst / 16 = 0x0180C200000 ∧ etherType f = 0x88F7 ∧ ofBe (slice (plain f) 14 1) % 16 ∈ [2, 3, 10]
    let quiet (t : State) : Prop := t.fs.fab.counts = s.fs.fab.counts ∧ t.fs.fab.sent = s.fs.fab.sent ∧ t.fs.fab.queues = s.fs.fab.queues ∧
      t.fs.fab.fdb = s.fs.fab.fdb ∧ t.a = s.a ∧ t.b = s.b
    let q (t : State) (o : Nat) : List Switched := Tab.get (fun _ => []) t.fs.fab.queues o
    let sentAt (t : State) (o : Nat) : List (Nat × List Byte) := t.fs.fab.sent.filter fun e => e.1 == o
    let woken (t : State) : Prop := t.fs.waking = s.fs.waking ++
      ((List.range 32).filter fun k => wakeMatches s.cfg k n f).map fun k => (k, ((wakePorts s.cfg k).map fun m => 2 ^ m).sum, s.now)
    (f.length < 64 → drops cRunt) ∧ (1522 < f.length → drops cOversize) ∧
    (sized → ¬ whole → drops cAlign) ∧ (sized → whole → fcsOk f = false → drops cFcs) ∧
    (good → etherType f = 0x8808 → s.pauseOn n = true → field 14 = 1 → run = exec (.pauseReceive port (BitVec.ofNat 16 (field 16))) s) ∧
    (good → etherType f = 0x8808 → s.pauseOn n = false ∨ field 14 ≠ 1 → drops cCtl) ∧
    (good → delay → ∃ t, run = .next t ∧ quiet t ∧ t.fs.waking = s.fs.waking) ∧
    (good → etherType f ≠ 0x8808 → ¬ delay → s.ingress n f = none ∨ dst / 16 = 0x0180C200000 → drops cFilter) ∧
    (∀ vid, good → etherType f ≠ 0x8808 → dst / 16 ≠ 0x0180C200000 → s.ingress n f = some vid →
      let learns : Prop := src / 2 ^ 40 % 2 = 0 ∧ ((∃ e ∈ s.fs.fab.fdb, e.mac = src ∧ e.vid = vid) ∨ s.fs.fab.fdb.length < 16384)
      let goes (o : Nat) : Prop := s.egressOk vid o = true ∧ o ≠ n ∧ ¬ (src = dst ∧ learns) ∧
        ∀ e, (s.fs.fab.fdb.find? fun e => e.mac == dst && e.vid == vid) = some e → o = e.port
      let x : Switched := { prio := s.tagPrio n f / 2, vid := vid, source := n, at_ := s.ttNow, frame := f }
      let waits (o : Nat) : Prop := s.ttNow + s.fs.tickNs ≤ s.wireAt o ∨ s.fs.pausedAt o = true
      let open_ (o : Nat) : Prop := s.gateOpen o (s.wireAt o + s.fs.frameNs o (s.egressForm n vid o 0 f).length) = true
      (128 ≤ n → Tab.get (fun _ => 0) s.fs.fab.fwd vid ≠ n - 127 → ∃ t, run = .next t ∧ quiet t ∧ woken t) ∧
      (n < 128 ∨ Tab.get (fun _ => 0) s.fs.fab.fwd vid = n - 127 → ∃ t, run = .next t ∧ woken t ∧
        (learns → ∃ e ∈ t.fs.fab.fdb, e.mac = src ∧ e.vid = vid ∧ e.port = n) ∧
        (¬ learns → t.fs.fab.fdb.map (fun e => (e.mac, e.vid, e.port)) = s.fs.fab.fdb.map fun e => (e.mac, e.vid, e.port)) ∧
        ∀ o : Fin 132, (¬ goes o → q t o = q s o ∧ sentAt t o = sentAt s o) ∧
          (goes o → o ∈ full → q t o = q s o ∧ sentAt t o = sentAt s o ∧ ∀ i, Tab.get (fun _ => 0) t.fs.fab.counts (countKey i o cEgdrop) =
            satInc 0xFFFF (Tab.get (fun _ => 0) s.fs.fab.counts (countKey i o cEgdrop))) ∧
          (goes o → o ∉ full → waits o → (∀ y ∈ q s o, s.egressOk y.vid o = true) → q t o = q s o ++ [x] ∧ sentAt t o = sentAt s o) ∧
          (goes o → o ∉ full → ¬ waits o → q s o = [] → ¬ open_ o → q t o = [x] ∧ sentAt t o = sentAt s o) ∧
          (goes o → o ∉ full → ¬ waits o → q s o = [] → open_ o → q t o = [] ∧
            ∃ ns, (ptpEventAt (plain f) = none → ns = 0) ∧ sentAt t o = sentAt s o ++ [(o.val, s.egressForm n vid o ns f)]))) ∧
    (s.pauseOn n = false → ∃ t, exec (.pauseReceive port quanta) s = .next t ∧ droppedAs s t n cCtl) ∧
    (s.pauseOn n = true → ∃ t, exec (.pauseReceive port quanta) s = .next t ∧
      pauseOf t n = (if quanta = 0 then none else some (s.ttNow + s.quantaNs n quanta.toNat)) ∧
      (128 ≤ n → ∀ i, (s.plane i).phase = .ready →
        (t.plane i).rdF (Reg.UPL_PAUSE_CNT (n - 128)) 15 0 = satInc 65535 ((s.plane i).rdF (Reg.UPL_PAUSE_CNT (n - 128)) 15 0))) ∧
    (pauseOf s n = none → exec (.pauseExpiry port) s = .next s) ∧
    (∀ x, pauseOf s n = some x → s.ttNow < x → exec (.pauseExpiry port) s = .next s) ∧
    (∀ x, pauseOf s n = some x → x ≤ s.ttNow → ∃ t, exec (.pauseExpiry port) s = .next t ∧ pauseOf t n = none ∧
      (128 ≤ n → ∀ i, (s.plane i).phase = .ready → (t.plane i).rdF (Reg.UPL_PAUSE_MAX (n - 128)) 15 0 =
        max ((s.plane i).rdF (Reg.UPL_PAUSE_MAX (n - 128)) 15 0) (min 0xFFFF (s.now - (s.fs.uplink (n - 128)).pauseFrom)))) ∧
    (∀ (mac : BitVec 48) (vid : BitVec 12), ∃ t, exec (.fdbAgeExpiry mac vid) s = .next t ∧ t.a = s.a ∧ t.b = s.b ∧
      ∀ e, e ∈ t.fs.fab.fdb ↔ e ∈ s.fs.fab.fdb ∧ ¬ (e.mac = mac.toNat ∧ e.vid = vid.toNat ∧
        e.used + max 10 (fld (s.cfg Reg.SWF_CFG) 31 16) * 1000000000 ≤ s.ttNow))

/-- R263 to R265, R275, R280, R281, R435, R448, R454: links, modules, wake filters and the management interface. A port gets its link where
its SPEED allows the partner's, and with it pause where both ends have it; otherwise it has none and shows why. The PHY of a sleeping port
and a faulted fabric get no link. A higher speed is in force at once, a lower one at the next boundary. A lost link is seen by both
planes. An uplink gets its link with a supported module, its laser on and the mode that MODE gives, and loses it with a change of module.
A wake filter's CFG completes it as one configuration write, with an active tag. A plane answers ARP and ICMP echo, and accepts Moarno
connections, for its own address only. Where the spec leaves it open, the model's choice: assumption 36. It concludes that exec answers a
next state for portLinkChange, uplinkLinkChange, moduleChange, wakeFilterWrite, mgmtFrame. -/
def Obligations.LinksFiltersAndManagement : Prop :=
  ∀ (s : State) (i : PlaneId) (tag : Tag) (n : Fin 128) (u : Fin 4) (g1000 tenG pause : Bool) (m : Option Sfp) (k : Fin 32) (data : Word) (kind : MgmtKind)
    (service : Bool),
    let x := s.fs.port n.val
    let y := s.fs.uplink u.val
    let p := s.plane i
    let cfg := s.cfg (Reg.SWF_PORT_CFG n.val)
    let speed := if g1000 then 1000 else 100
    let phy (t : State) : PhySt := Tab.get (fun _ => {}) t.fs.phy n.val
    let off : Prop := x.st = .sleep ∨ s.fabricFault = true
    let allowed : Prop := ¬ (fld cfg 1 0 = 1 ∧ g1000 = true) ∧ ¬ (fld cfg 1 0 = 2 ∧ g1000 = false)
    let others (t : State) : Prop := t.now = s.now ∧ (∀ m, m ≠ n.val → t.fs.port m = s.fs.port m)
    let lost (t : State) : Prop := others t ∧ (t.fs.port n.val).link = false ∧ (phy t).pauseRx = false ∧ (x.link = false → t.a = s.a ∧ t.b = s.b) ∧
      (x.link = true → ∀ j, (s.plane j).phase = .ready → (t.plane j).rdF Reg.SWF_EVT 9 9 = 1)
    let able : Prop := (y.module = some .tenG ∨ y.module = some .oneG) ∧ bit (s.cfg (Reg.UPL_CTRL u.val)) 0 = true ∧ tenG = uplinkTenG s.fs s.cfg u.val ∧
      s.fabricFault = false
    let up : Uplink := { y with link := true, tenG := tenG, pauseOk := bit (s.cfg (Reg.UPL_CFG u.val)) 2 && (tenG || pause) }
    let down : Uplink := { y with link := false, pauseOk := false, pauseUntil := none }
    let word (j : Nat) : Word := let old := p.bufWord 0 4 k.val j fun j => p.rd (Reg.WAKE_MASK_0 k.val + 4 * j)
      if j = 9 then data else old
    let addr : Word := if service then BitVec.ofNat 32 (0xA9FE4700 + 10 + i.num) else p.cfg (if i = .a then Reg.SWF_IP_A else Reg.SWF_IP_B)
    (off → exec (.portLinkChange n (.up g1000 pause)) s = .next s) ∧
    (¬ off → allowed → ∃ t, exec (.portLinkChange n (.up g1000 pause)) s = .next t ∧ others t ∧ (t.fs.port n.val).link = true ∧
      (t.fs.port n.val).speed = speed ∧ phy t = { pauseRx := bit cfg 2 && pause } ∧
      (if speed < x.rate then (t.fs.port n.val).rate = x.rate ∧ t.fs.fab.slower = s.fs.fab.slower ++ [n.val] else (t.fs.port n.val).rate = speed) ∧
      ∀ j, (s.plane j).phase = .ready → (t.plane j).rdF Reg.SWF_EVT 9 9 = 1) ∧
    (¬ off → ¬ allowed → ∃ t, exec (.portLinkChange n (.up g1000 pause)) s = .next t ∧ lost t ∧ (phy t).speedRefused = true) ∧
    (∃ t, exec (.portLinkChange n .down) s = .next t ∧ lost t ∧ phy t = {}) ∧
    (∃ t, exec (.portLinkChange n .halfOnly) s = .next t ∧ lost t ∧ (phy t).half = true) ∧
    (∃ t, exec (.portLinkChange n .speedRefused) s = .next t ∧ lost t ∧ (phy t).speedRefused = true) ∧
    (¬ able → exec (.uplinkLinkChange u true tenG pause) s = .next s) ∧
    (able → ∃ t, exec (.uplinkLinkChange u true tenG pause) s = .next t ∧ t.fs.ports = s.fs.ports ∧
      (if y.rate = true ∧ tenG = false then t.fs.uplink u.val = up ∧ t.fs.fab.slower = s.fs.fab.slower ++ [0x200 + u.val]
        else t.fs.uplink u.val = { up with rate := tenG }) ∧
      (y.link = false → ∀ j, (s.plane j).phase = .ready → (t.plane j).rdF (Reg.UPL_EVT u.val) 8 8 = 1)) ∧
    (y.link = false → exec (.uplinkLinkChange u false tenG pause) s = .next s) ∧
    (y.link = true → ∃ t, exec (.uplinkLinkChange u false tenG pause) s = .next t ∧ t.fs.uplink u.val = down ∧
      ∀ j, (s.plane j).phase = .ready → (t.plane j).rdF (Reg.UPL_EVT u.val) 8 8 = 1) ∧
    (∃ t, exec (.moduleChange u m) s = .next t ∧ t.fs.uplink u.val = { (if y.link = true ∧ y.module ≠ m then down else y) with module := m } ∧
      ∀ j, (s.plane j).phase = .ready → (t.plane j).rdF (Reg.UPL_EVT u.val) 12 12 = 1) ∧
    (s.writes i tag 0xF#4 (Reg.WAKE_CFG k.val) data →
      (p.isActive = true → tagActive p.rd (fld data 13 8) = true → fld data 13 8 ≠ 63 → ∃ t, exec (.wakeFilterWrite i tag k data) s = .next t ∧
        configTaken s t i ((List.range 10).map fun j => (Reg.WAKE_MASK_0 k.val + 4 * j, 0xFFFFFFFF#32, word j))) ∧
      (p.isActive = true → fld data 13 8 = 63 ∨ tagActive p.rd (fld data 13 8) = false →
        exec (.wakeFilterWrite i tag k data) s = .next (s.upd i fun p => p.err 0x35)) ∧
      (p.isActive = false → exec (.wakeFilterWrite i tag k data) s = .next (s.upd i fun p => (p.err 0x35).evt Reg.SYS_EVT 11))) ∧
    (∃ t, exec (.mgmtFrame i kind service) s = .next t ∧ t.a = s.a ∧ t.b = s.b ∧ (t.fs.fab.mgmtSent = none ∨ t.fs.fab.mgmtSent = some (i, kind)) ∧
      (t.fs.fab.mgmtSent.isSome ↔ p.phase = .ready ∧ addr ≠ 0 ∧ (service = true ∨ bit (p.cfg Reg.SWF_MGMT) 16 = true) ∧
        (kind = .arp addr ∨ kind = .icmp addr ∨ ∃ port, kind = .tcp addr port ∧ port.toNat = fld (p.rd Reg.ACCESS_MOARNO) 15 0)))

/-- R286, R289 to R296, R446: CAN channels. An enabled, integrated channel that is on the bus offers its highest-ranked object, outside a
lease gap, and the first start of its frame is the launch: a command is DELIVERED where it came within its allowance. A sent frame lowers
TEC by 1, and an error raises it by 8 but for the exemptions; a frame not sent retries until its attempts are used up, or is removed where
the channel no longer sends. Above 255 the channel is off the bus, until recovery ends with both counts at 0. A received frame is stored
by both planes at the write position or in its shadow and lowers REC, and one that finds no room is counted. Writing 1 to FULL bits
releases their objects; RECOVER is a configuration write. The field supply. An overcurrent switches its connector off and is shown by both
channels and FIELD_FLT.CAN; it is tried again after 1 s, and the fifth in a row switches it off for good. A total overload switches off
one connector with the highest current, and no other. With every output on again and the front end sound, FIELD_FLT.CAN clears. Where the
spec leaves it open, the model's choice: assumptions 10, 37. It concludes that exec answers a next state for canArbitrationStart,
canAttemptEnd, canFrameReceive, rxRelease, recover, canRecovered, fieldSupplyOvercurrent, fieldSupplyRetry, fieldSupplyTotalOverload,
errorFrame, integration. -/
def Obligations.CanChannelsFollowTheBusAndTheirSupply : Prop :=
  (∀ (s : State) (i : PlaneId) (tag : Tag) (ch : Fin 8) (code : Fin 8) (msg : CanFrame) (primary dominant data exempt : Bool) (w : Fin 4) (bits : Word),
    let c := s.fs.chan ch.val
    let p := s.plane i
    let sends := canSends s.cfg ch.val
    let go : Prop := sends = true ∧ c.integrated = true ∧ s.fs.chanOff ch.val = false ∧ s.fs.inGap s.now = false ∧ c.onBus = none
    let others (t : State) : Prop := t.now = s.now ∧ (∀ m, m ≠ ch.val → t.fs.chan m = s.fs.chan m) ∧ t.fs.ports = s.fs.ports ∧ t.fs.au = s.fs.au
    let y (t : State) : CanChan := t.fs.chan ch.val
    let ended (x : TxObj) (err : Nat) : TxObj := if sends = false then { x with st := .removed, err := err, stamp := s.now }
      else if x.attempts ≤ x.retry then { x with st := .retrying, err := err } else { x with st := .exhausted, err := err, stamp := s.now }
    let quiet : Prop := (c.fc = 1 ∧ code = 4 ∧ dominant = false) ∨ exempt = true
    let tired (t : State) (x : TxObj) : Prop := sends = true → x.retry < x.attempts → ∀ j, (s.plane j).phase = .ready →
      (t.plane j).rdF (Reg.CAN_EVT ch.val) 10 10 = 1 ∧
      (t.plane j).rdF (Reg.CAN_EXHAUST_CNT ch.val) 15 0 = satInc 65535 ((s.plane j).rdF (Reg.CAN_EXHAUST_CNT ch.val) 15 0)
    (¬ go ∨ c.offer = none → exec (.canArbitrationStart ch) s = .next s) ∧
    (∀ k, go → c.offer = some k → ∃ t, exec (.canArbitrationStart ch) s = .next t ∧ others t ∧ (y t).onBus = some k ∧
      let x := c.obj k
      (y t).obj k = { x with attempts := x.attempts + 1, started := true, msg := { x.msg with esi := x.msg.fdf && c.fc == 1 } } ∧
      (x.started = true ∨ x.standing = true → t.a = s.a ∧ t.b = s.b) ∧
      ∀ j, (s.plane j).phase = .ready → x.started = false → x.standing = false → (s.plane j).holds x.slot x.seq = true →
        ((s.plane j).slot x.slot).st = .launched → ((t.plane j).slot x.slot).st =
          if s.now ≤ ((s.plane j).slot x.slot).launch + allowance (s.plane j).cfg ((s.plane j).slot x.slot).path then .delivered else .launched) ∧
    (∀ r, c.onBus = none → exec (.canAttemptEnd ch r) s = .next s) ∧
    (∀ k, c.onBus = some k → let x := c.obj k
      (∃ t, exec (.canAttemptEnd ch .ok) s = .next t ∧ others t ∧ (y t).onBus = none ∧ countsTaken s t ch c (c.tec - 1) c.rec_ ∧
        (y t).obj k = { x with st := .sent, stamp := s.now } ∧
        ∀ j, (s.plane j).phase = .ready → (t.plane j).rdF (Reg.CAN_TX_OK ch.val) 15 0 = satInc 65535 ((s.plane j).rdF (Reg.CAN_TX_OK ch.val) 15 0)) ∧
      (∃ t, exec (.canAttemptEnd ch .lost) s = .next t ∧ others t ∧ (y t).onBus = none ∧ (y t).tec = c.tec ∧ (y t).rec_ = c.rec_ ∧ (y t).fc = c.fc ∧
        (y t).obj k = ended x 6 ∧ tired t x ∧ (sends = false ∨ x.attempts ≤ x.retry → t.a = s.a ∧ t.b = s.b)) ∧
      (∃ t, exec (.canAttemptEnd ch (.error code dominant data exempt)) s = .next t ∧ others t ∧ (y t).onBus = none ∧ (y t).obj k = ended x code.val ∧
        tired t x ∧ (y t).lec = code.val ∧ (y t).lecData = data ∧ (quiet → (y t).tec = c.tec ∧ (y t).rec_ = c.rec_ ∧ (y t).fc = c.fc) ∧
        (¬ quiet → countsTaken s t ch c (c.tec + 8) c.rec_))) ∧
    (s.canHears ch.val = false → exec (.canFrameReceive ch msg) s = .next s ∧ exec (.errorFrame ch code primary data) s = .next s) ∧
    (s.canHears ch.val = true → ∃ t n, exec (.canFrameReceive ch msg) s = .next t ∧ others t ∧ (y t).tx = c.tx ∧ countsTaken s t ch c c.tec n ∧
      (c.rec_ ≤ 127 → n = c.rec_ - 1) ∧ (127 < c.rec_ → 119 ≤ n ∧ n ≤ 127) ∧
      ∀ j, (s.plane j).phase = .ready → let r := (s.plane j).rx ch.val; let tag := canTag (s.plane j).cfg ch.val
        (t.plane j).rdF (Reg.CAN_RX_CNT ch.val) 15 0 = satInc 65535 ((s.plane j).rdF (Reg.CAN_RX_CNT ch.val) 15 0) ∧
        (∀ k, rxWpos (s.plane j).cfg ch.val r = some k → (r.obj k).full = false →
          ((t.plane j).rx ch.val).obj k = { full := true, msg := canMsg msg, stamp := s.now, tag := tag } ∧
          (t.plane j).rdF (Reg.CAN_EVT ch.val) 8 8 = 1) ∧
        (∀ k, rxWpos (s.plane j).cfg ch.val r = some k → (r.obj k).full = true → (r.obj k).shadow = none →
          ((t.plane j).rx ch.val).obj k = { r.obj k with shadow := some (canMsg msg, s.now, tag) }) ∧
        ((∀ k, rxWpos (s.plane j).cfg ch.val r = some k → (r.obj k).full = true ∧ (r.obj k).shadow ≠ none) →
          (t.plane j).rx ch.val = r ∧ (t.plane j).rdF (Reg.CAN_EVT ch.val) 9 9 = 1)) ∧
    (s.canHears ch.val = true → ∃ t, exec (.errorFrame ch code primary data) s = .next t ∧ others t ∧ (y t).lec = code.val ∧ (y t).lecData = data ∧
      countsTaken s t ch c c.tec (min 255 (c.rec_ + 1 + if primary then 8 else 0))) ∧
    (s.writes i tag 0xF#4 (Reg.CAN_RX_FULL ch.val w.val) bits → ∃ t, exec (.rxRelease i tag ch w bits) s = .next t ∧ t.fs = s.fs ∧
      t.plane i.other = s.plane i.other ∧ (t.plane i).regs = p.regs ∧
      ∀ b < 32, let n := 32 * w.val + b; let x := (p.rx ch.val).obj n
        ((t.plane i).rx ch.val).obj n = if bit bits b = true ∧ x.full = true ∧ objTx p.cfg ch.val n = false then
          (match x.shadow with | some (m, st, tag) => { full := true, msg := m, stamp := st, tag := tag } | none => {}) else x) ∧
    (s.writes i tag 0x2#4 (Reg.CAN_CTRL ch.val) 0x100 →
      (p.isActive = true → ∃ t, exec (.recover i tag ch) s = .next t ∧ configTaken s t i [(Reg.CAN_CTRL ch.val, 0x100#32, 0x100#32)]) ∧
      (p.isActive = false → exec (.recover i tag ch) s = .next (s.upd i fun p => (p.err (0x38 + ch.val)).evt Reg.SYS_EVT 11))) ∧
    (c.fc ≠ 2 ∨ c.recovering = false → exec (.canRecovered ch) s = .next s) ∧
    (c.fc = 2 → c.recovering = true → ∃ t, exec (.canRecovered ch) s = .next t ∧ others t ∧
      y t = { c with tec := 0, rec_ := 0, fc := 0, recovering := false, recov := 128 } ∧
      ∀ j, (s.plane j).phase = .ready → (t.plane j).rdF (Reg.CAN_EVT ch.val) 13 13 = 1) ∧
    (bit (s.cfg (Reg.CAN_CTRL ch.val)) 0 = true → ∃ t, exec (.integration ch) s = .next t ∧ others t ∧ t.a = s.a ∧ t.b = s.b ∧
      y t = { c with integrated := true }) ∧
    (bit (s.cfg (Reg.CAN_CTRL ch.val)) 0 = false → exec (.integration ch) s = .next s)) ∧
  (∀ (s : State) (c : Fin 4) (ma : List Nat),
    let x := s.fs.supply c.val
    let runs (c : Nat) : Nat := let x := s.fs.supply c; if x.runs = 0 ∨ x.onAt + 60000000000 ≤ s.ttNow then 1 else x.runs + 1
    let shown (t : State) (c : Nat) : Prop :=
      t.fs.supply c = { s.fs.supply c with
        on := false, runs := runs c, latched := decide (5 ≤ runs c), retryAt := if 5 ≤ runs c then none else some (s.ttNow + 1000000000) } ∧
      (∀ d, d ≠ c → t.fs.supply d = s.fs.supply d) ∧ t.fs.ports = s.fs.ports ∧
      ∀ j, (s.plane j).phase = .ready → (t.plane j).rdF (Reg.CAN_EVT (2 * c)) 16 16 = 1 ∧ (t.plane j).rdF (Reg.CAN_EVT (2 * c + 1)) 16 16 = 1 ∧
        (t.plane j).rdF Reg.FAULT_FIELD_FLT 9 9 = 1
    (x.on = false → exec (.fieldSupplyOvercurrent c) s = .next s) ∧
    (x.on = true → ∃ t, exec (.fieldSupplyOvercurrent c) s = .next t ∧ shown t c) ∧
    (x.retryAt = none ∨ x.on = true → exec (.fieldSupplyRetry c) s = .next s) ∧
    (∀ r, x.retryAt = some r → s.ttNow < r → exec (.fieldSupplyRetry c) s = .next s) ∧
    (∀ r, x.retryAt = some r → r ≤ s.ttNow → x.on = false → ∃ t, exec (.fieldSupplyRetry c) s = .next t ∧
      t.fs.supply c.val = { x with on := true, retryAt := none, onAt := s.ttNow } ∧ (∀ d, d ≠ c.val → t.fs.supply d = s.fs.supply d) ∧
      ∀ j, (s.plane j).phase = .ready → (t.plane j).rdF (Reg.CAN_EVT (2 * c)) 16 16 = 1 ∧
        (s.fs.canFlt = false → (∀ d < 4, d ≠ c.val → (s.fs.supply d).on = true) → (t.plane j).rdF Reg.FAULT_FIELD_FLT 9 9 = 0)) ∧
    ((∀ d < 4, (s.fs.supply d).on = false) → exec (.fieldSupplyTotalOverload ma) s = .next s) ∧
    ((∃ d < 4, (s.fs.supply d).on = true) → ∃ t, ∃ d < 4, exec (.fieldSupplyTotalOverload ma) s = .next t ∧ shown t d ∧ (s.fs.supply d).on = true ∧
      ∀ k < 4, (s.fs.supply k).on = true → ma.getD k 0 ≤ ma.getD d 0))

/-- R321, R324, R325, R329, R331 to R338: key operations over the HRP. An operation that R329 refuses changes no slot and answers 0x1C. With
the engine idle an operation starts and shows BUSY, or is answered at once with its code; with another running it waits its turn. A
completed staging leaves the key staged beside the active one, a passed test marks it verified, a failed test drops it, and a failed
operation answers its code; a commit ends with its store. DISCARD drops the staged key alone; INVALIDATE and ZERO invalidate their slots
at once, with all that descend from them, and no slot outside them, and the erasure empties them. Re-enrolment empties every slot and
takes the next bank. The entropy tests and the health check show in KEY and FAULT. Where the spec leaves it open, the model's choice:
assumptions 45, 46. It concludes that exec answers a next state for generate, derive, import_, keyVerify, commit, keyDiscard, invalidate,
keyOpDone, keyEraseDone, zeroAll, reenrol, entropyFail, wellspringHealthCheck, entropyRecovered. -/
def Obligations.KeyOperationsFollowTheirSlots : Prop :=
  ∀ (s : State) (i : PlaneId) (tag : Tag),
    let p := s.plane i
    let n := p.prdF 0 Reg.KEY_K_SEL 7 0
    let x := p.keySlot n
    let idle : Prop := p.keys.run = none ∧ p.keys.queue = []
    let alone (t : State) : Prop := t.plane i.other = s.plane i.other ∧ t.fs = s.fs
    let slot (t : State) (m : Nat) : KeySlot := (t.plane i).keySlot m
    let answered (t : State) (path code m : Nat) : Prop := (t.plane i).prd path Reg.KEY_K_RES = BitVec.ofNat 32 (code + 256 * m)
    let fresh (r : KeyReq) (m : KeyMat) : KeySlot :=
      { st := .active, imported := m.imported, type := r.type, parent := r.parent, tag := r.tag, use := r.use, label := m.label, staged := some m }
    let operation (op : Nat) : Prop := s.writes i tag 0x1#4 Reg.KEY_K_OP (w32 op) ∧ p.keyRefused (p.keyReq 0 tag op) = false
    (∀ c op, (c, op) ∈ [(Instr.generate i tag, 1), (.derive i tag, 2), (.import_ i tag, 3), (.keyVerify i tag, 4), (.commit i tag, 5), (.keyDiscard i tag, 6),
        (.invalidate i tag, 7)] →
      let r := p.keyReq 0 tag op
      (s.writes i tag 0x1#4 Reg.KEY_K_OP (w32 op) → p.keyRefused r = true →
        exec c s = .next (s.upd i fun p => (p.violate 0 tag true 4 Reg.KEY_K_OP s.now).keyAnswer 0 n 0x1C)) ∧
      (∀ code run, operation op → op ≤ 5 → idle → p.keyBegin r = (code, some run) → ∃ t, exec c s = .next t ∧ alone t ∧ (t.plane i).keys.run = some run ∧
        (t.plane i).keys.queue = [r] ∧ (t.plane i).keys.slots = p.keys.slots ∧ answered t 0 1 n) ∧
      (∀ code, operation op → op ≤ 5 → idle → p.keyBegin r = (code, none) → ∃ t, exec c s = .next t ∧ alone t ∧ (t.plane i).keys.run = none ∧
        (t.plane i).keys.queue = [] ∧ (t.plane i).keys.slots = p.keys.slots ∧ answered t 0 code n) ∧
      (∀ run, operation op → op ≤ 5 → p.keys.run = some run → ∃ t, exec c s = .next t ∧ alone t ∧
        (t.plane i).keys = { p.keys with queue := p.keys.queue ++ [r] } ∧ answered t 0 1 n)) ∧
    (operation 6 → x.st = .invalid → exec (.keyDiscard i tag) s = .next (s.upd i fun p => p.keyAnswer 0 n 0x17)) ∧
    (operation 6 → x.st ≠ .invalid → x.staged = none → exec (.keyDiscard i tag) s = .next (s.upd i fun p => p.keyAnswer 0 n 0x13)) ∧
    (operation 6 → x.st ≠ .invalid → x.staged ≠ none → ∃ t, exec (.keyDiscard i tag) s = .next t ∧ alone t ∧ slot t n = x.dropped ∧
      (∀ m, m ≠ n → slot t m = p.keySlot m) ∧ (t.plane i).keys.run = p.keys.run ∧ (t.plane i).keys.queue = p.keys.queue ∧ answered t 0 2 n) ∧
    (operation 7 → n < 2 → exec (.invalidate i tag) s = .next (s.upd i fun p => p.keyAnswer 0 n 0x12)) ∧
    (operation 7 → 2 ≤ n → x.st = .invalid → exec (.invalidate i tag) s = .next (s.upd i fun p => p.keyAnswer 0 n 0x17)) ∧
    (operation 7 → 2 ≤ n → x.st = .empty → exec (.invalidate i tag) s = .next (s.upd i fun p => p.keyAnswer 0 n 2)) ∧
    (operation 7 → 2 ≤ n → x.st = .active → ∃ t, exec (.invalidate i tag) s = .next t ∧ alone t ∧ (slot t n).st = .invalid ∧
      (∀ m ∈ p.descend 256 [n], 2 ≤ m → m < 256 → (p.keySlot m).st = .active → slot t m = { p.keySlot m with st := .invalid }) ∧
      (∀ m, m ∉ p.descend 256 [n] → slot t m = p.keySlot m) ∧ (t.plane i).rdF Reg.KEY_EVT 9 9 = 1 ∧
      ((∀ q ∈ p.keys.queue, q.path ≠ 0) → answered t 0 1 n)) ∧
    (s.writes i tag 0xF#4 Reg.KEY_ZERO 0x5A31 → ∃ t, exec (.zeroAll i tag) s = .next t ∧ alone t ∧ (t.plane i).rdF Reg.KEY_EVT 9 9 = 1 ∧
      ∀ m, 2 ≤ m → m < 256 → slot t m = if (p.keySlot m).st = .active then { p.keySlot m with st := .invalid } else p.keySlot m) ∧
    (s.writes i tag 0xF#4 Reg.KEY_ZERO 0x5A32 →
      (p.keys.bank < 3 → ∃ t, exec (.reenrol i tag) s = .next t ∧ alone t ∧ (t.plane i).keys.slots = [] ∧ (t.plane i).keys.queue = [] ∧
        (t.plane i).keys.run = none ∧ (t.plane i).keys.bank = p.keys.bank + 1 ∧ (t.plane i).keys.cert = false ∧
        ∀ k < 8, ((t.plane i).session k).opened = false) ∧
      (3 ≤ p.keys.bank → exec (.reenrol i tag) s = .next (s.upd i fun p => p.err Reg.KEY_PAGE))) ∧
    (p.keys.run = none ∨ p.keys.run = some .commit ∨ p.keys.queue = [] → exec (.keyOpDone i) s = .next s) ∧
    (∀ r rest, p.keys.queue = r :: rest → 2 ≤ r.slot → p.keys.run ≠ none → p.keys.run ≠ some .commit → ∃ t, exec (.keyOpDone i) s = .next t ∧ alone t ∧
      (rest = [] → (t.plane i).keys.run = none ∧ (t.plane i).keys.queue = []) ∧ (∀ m, m ≠ r.slot → slot t m = p.keySlot m) ∧
      let mine (code : Nat) : Prop := (∀ q ∈ rest, q.path ≠ r.path) → answered t r.path code r.slot
      let y := p.keySlot r.slot
      (∀ m, p.keys.run = some (.stage m) → mine 2 ∧ slot t r.slot = match y.st with
        | .empty => fresh r m
        | .active => { y with staged := some m, verified := false, stagedKcv := 0 }
        | .invalid => y) ∧
      (∀ k, p.keys.run = some (.test k) → y.st = .active → y.staged ≠ none → mine 2 ∧ slot t r.slot = { y with verified := true, stagedKcv := k } ∧
        (t.plane i).prd r.path Reg.KEY_K_KCV = BitVec.ofNat 32 k) ∧
      (∀ k, p.keys.run = some (.test k) → y.st ≠ .active ∨ y.staged = none → mine 0x13 ∧ slot t r.slot = y) ∧
      (∀ code, p.keys.run = some (.fail code) → mine code ∧ slot t r.slot = if code = 0x15 ∧ y.st = .active then y.dropped else y)) ∧
    (p.keys.erase = [] → exec (.keyEraseDone i) s = .next s) ∧
    (∃ t, exec (.keyEraseDone i) s = .next t ∧ alone t ∧ (t.plane i).keys.erase = [] ∧
      (∀ e ∈ p.keys.erase, ∀ m ∈ e.slots, 2 ≤ m → slot t m = {}) ∧ (∀ m, (∀ e ∈ p.keys.erase, m ∉ e.slots) → slot t m = p.keySlot m) ∧
      ∀ e ∈ p.keys.erase, ∀ k, e.path = some k → (∀ f ∈ p.keys.erase, f.path = some k → f.sel = e.sel) → answered t k 2 e.sel) ∧
    (exec (.entropyFail i) s = .next (s.upd i fun x => ({ x with keys := { x.keys with entropyFail := true } }).wrF Reg.KEY_STAT 11 11 1)) ∧
    (exec (.entropyRecovered i) s = .next (s.upd i fun x => ({ x with keys := { x.keys with entropyFail := false } }).wrF Reg.KEY_STAT 11 11 0)) ∧
    (∃ t, exec (.wellspringHealthCheck i true) s = .next t ∧ alone t ∧ (t.plane i).keys = p.keys ∧ Tab.get (fun _ => 0) (t.plane i).bkg.doneAt 4 = s.now ∧
      (t.plane i).rd Reg.FAULT_PLANE_FLT = p.rd Reg.FAULT_PLANE_FLT) ∧
    (∃ t, exec (.wellspringHealthCheck i false) s = .next t ∧ (t.plane i).rdF Reg.FAULT_PLANE_FLT 2 2 = 1 ∧ (t.plane i).rdF Reg.KEY_EVT 11 11 = 1)

/-- R322, R340, R348, R349: the crypto engines over the HRP. An operation whose slot is not its tag's is a violation and answers 0x1C; a write
while the path's operation is BUSY is counted and ignored. With the engines idle an operation starts on its input, or is answered with its
code; with another running it waits. On completion its output fills OUT's words and C_RES gives its code and length. HASH computes SM3,
HMAC uses an active key with its use bit, and RANDOM draws fresh bytes. Where the spec leaves it open, the model's choice: assumptions 12,
13, 45, 46. It concludes that exec answers a next state for hash, hmac, sign, verify, encrypt, decrypt, random, quote, statement, devcert,
cryptoOpDone. -/
def Obligations.CryptoOperationsRunInTurn : Prop :=
  ∀ (s : State) (i : PlaneId) (tag : Tag) (k : Fin 256) (pre : Bool),
    let p := s.plane i
    let input := p.pbytes 0 (Reg.CRYPTO_IN 0) (p.prdF 0 Reg.CRYPTO_C_LEN 10 0)
    let alone (t : State) : Prop := t.plane i.other = s.plane i.other ∧ t.fs = s.fs ∧ (t.plane i).keys.slots = p.keys.slots
    (∀ c op slot pre', (c, op, slot, pre') ∈ [(Instr.hash i tag, 1, 0, false), (.hmac i tag k, 2, k.val, false), (.sign i tag k pre, 3, k.val, pre),
        (.verify i tag k pre, 4, k.val, pre), (.encrypt i tag k, 5, k.val, false), (.decrypt i tag k, 6, k.val, false), (.random i tag, 7, 0, false),
        (.quote i tag, 8, 0, false), (.statement i tag k, 9, k.val, false), (.devcert i tag, 10, 0, false)] →
      s.writes i tag 0x7#4 Reg.CRYPTO_C_OP (w32 (op + 256 * slot + 65536 * b1 pre')) →
      let r : CryptoReq := { path := 0, access := tag, op := op, slot := slot, pre := pre', input := input }
      (p.prdF 0 Reg.CRYPTO_C_RES 7 0 = 1 → exec c s = .next (s.upd i fun p => p.err Reg.CRYPTO_PAGE)) ∧
      (p.prdF 0 Reg.CRYPTO_C_RES 7 0 ≠ 1 → p.cryptoRefused r = true → ∃ t, exec c s = .next t ∧ alone t ∧ (t.plane i).prd 0 Reg.CRYPTO_C_RES = 0x1C ∧
        (t.plane i).crypto = p.crypto ∧ (t.plane i).rdF Reg.ACCESS_EVT 8 8 = 1) ∧
      (p.prdF 0 Reg.CRYPTO_C_RES 7 0 ≠ 1 → p.cryptoRefused r = false → p.crypto.run = none → p.crypto.queue = [] →
        (∀ code y, p.cryptoBegin r s.now = (code, some y) → ∃ t, exec c s = .next t ∧ alone t ∧ (t.plane i).prd 0 Reg.CRYPTO_C_RES = 1 ∧
          (t.plane i).crypto = { queue := [r], run := some y } ∧ (t.plane i).keys.draws = p.keys.draws + 1) ∧
        (∀ code, p.cryptoBegin r s.now = (code, none) → ∃ t, exec c s = .next t ∧ alone t ∧ (t.plane i).prd 0 Reg.CRYPTO_C_RES = BitVec.ofNat 32 code ∧
          (t.plane i).crypto = { queue := [], run := none } ∧ (t.plane i).keys = p.keys)) ∧
      (∀ y, p.prdF 0 Reg.CRYPTO_C_RES 7 0 ≠ 1 → p.cryptoRefused r = false → p.crypto.run = some y → ∃ t, exec c s = .next t ∧ alone t ∧
        (t.plane i).prd 0 Reg.CRYPTO_C_RES = 1 ∧ (t.plane i).crypto = { p.crypto with queue := p.crypto.queue ++ [r] })) ∧
    (p.crypto.run = none ∨ p.crypto.queue = [] → exec (.cryptoOpDone i) s = .next s) ∧
    (∀ r rest code out, p.crypto.queue = r :: rest → p.crypto.run = some (code, out) → ∃ t, exec (.cryptoOpDone i) s = .next t ∧ alone t ∧
      ((∀ q ∈ rest, q.path ≠ r.path) → (t.plane i).prd r.path Reg.CRYPTO_C_RES = BitVec.ofNat 32 (code + 65536 * out.length)) ∧
      (rest = [] → (t.plane i).crypto = { queue := [], run := none }) ∧
      (t.plane i).rdF Reg.CRYPTO_OP_CNT 15 0 = satInc 65535 (p.rdF Reg.CRYPTO_OP_CNT 15 0) ∧ (t.plane i).rdF Reg.CRYPTO_EVT 8 8 = 1 ∧
      (∀ j < 256, (t.plane i).prd r.path (Reg.CRYPTO_OUT j) = BitVec.ofNat 32 (ofLe (slice out (4 * j) 4)))) ∧
    (∀ r : CryptoReq, r.input.length ≤ 1024 →
      (r.op = 1 → p.cryptoBegin r s.now = (0, some (2, sm3 r.input))) ∧
      (r.op = 7 → p.keys.entropyFail = false → r.input ≠ [] → p.cryptoBegin r s.now = (0, some (2, bytesOf (Config.random p.nextDraw) r.input.length))) ∧
      (∀ key, r.op = 2 → p.activeKey r.slot = some key → (p.keySlot r.slot).use.testBit 7 = true →
        p.cryptoBegin r s.now = (0, some (2, hmacOf key r.input))) ∧
      (r.op = 2 ∨ r.op = 3 ∨ r.op = 6 → p.keys.entropyFail = false → (p.keySlot r.slot).st = .invalid → p.cryptoBegin r s.now = (0x17, none)))

/-- R343 to R347, R353: images and firmware over the HRP. START begins a load where no other load runs and the firmware is not TRIAL; the
loading path appends its data, FINISH begins the verification and ABORT ends the load; any other write of them is counted. A failed check
shows its result and fills no slot; a firmware image that passes fills the slot that does not run; a program that passes is staged, beside
a standby in step only once that has verified it too. Ten seconds without data end a load. ACTIVATE, CONFIRM and ADVANCE move the slots
and the anti-rollback fuses; a TRIAL slot that fails is rejected. Where there is nothing to verify, to end or to reject, nothing changes.
Where the spec leaves it open, the model's choice: assumptions 12, 45. It concludes that exec answers a next state for imgStart, imgData,
finish, imgAbort, imgVerifyDone, imgTimeout, peer, activate, confirm, advance, trialFail. -/
def Obligations.ImagesAndFirmwareSlots : Prop :=
  ∀ (s : State) (i : PlaneId) (tag : Tag) (program : Bool) (data : Word),
    let p := s.plane i
    let b := p.boot
    let alone (t : State) : Prop := t.plane i.other = s.plane i.other ∧ t.fs = s.fs
    let shows (t : State) (code : Nat) : Prop := (t.plane i).rdF Reg.BOOT_IMG_STAT 7 0 = code
    let load (act : Nat) : Prop := s.writes i tag 0x3#4 Reg.BOOT_IMG_CTRL (w32 (act + 256 * b1 program))
    let word : Prop := s.writes i tag 0xF#4 Reg.BOOT_IMG_DATA data
    let fw (op : Nat) : Prop := s.writes i tag 0x1#4 Reg.BOOT_FW_CTRL (w32 op)
    let mine (l : ImgLoad) : Prop := b.load = some l ∧ l.path = 0 ∧ l.verifying = false
    let refused := s.upd i fun p => p.err Reg.BOOT_PAGE
    (load 1 → p.fw.st ≠ .trial → (b.load = none ∨ ∃ l, mine l) → ∃ t, exec (.imgStart i tag program) s = .next t ∧ alone t ∧
      (t.plane i).boot = { b with load := some { path := 0, program := program, lastTt := p.tt s.now } } ∧
      shows t 1 ∧ (t.plane i).rd Reg.BOOT_IMG_LEN = 0) ∧
    (load 1 → p.fw.st = .trial ∨ (∃ l, b.load = some l ∧ (l.path ≠ 0 ∨ l.verifying = true)) →
      exec (.imgStart i tag program) s = .next (s.upd i fun p => p.wrF Reg.BOOT_IMG_STAT 7 0 0x10)) ∧
    (∀ l, mine l →
      (word → ∃ t, exec (.imgData i tag data) s = .next t ∧ alone t ∧
        (t.plane i).boot = { b with load := some { l with bytes := l.bytes ++ leBytes 4 data.toNat, lastTt := p.tt s.now } } ∧
        (t.plane i).rd Reg.BOOT_IMG_LEN = BitVec.ofNat 32 (min (2 ^ 25 - 1) (l.bytes.length + 4))) ∧
      (load 2 → ∃ t, exec (.finish i tag program) s = .next t ∧ alone t ∧ (t.plane i).boot = { b with load := some { l with verifying := true } } ∧ shows t 2) ∧
      (load 4 → ∃ t, exec (.imgAbort i tag program) s = .next t ∧ alone t ∧ (t.plane i).boot = { b with load := none } ∧ shows t 0)) ∧
    ((∀ l, ¬ mine l) → (word → exec (.imgData i tag data) s = .next refused) ∧
      (load 2 → exec (.finish i tag program) s = .next refused) ∧ (load 4 → exec (.imgAbort i tag program) s = .next refused)) ∧
    (b.load = none ∨ (∃ l, b.load = some l ∧ l.verifying = false) ∨ b.peer ≠ none → exec (.imgVerifyDone i) s = .next s) ∧
    (∀ l, b.load = some l → l.verifying = true → b.peer = none →
      let code := p.imgCheck l.program l.bytes
      let n (o k : Nat) : Nat := ofLe (slice l.bytes o k)
      (code ≠ 3 → ∃ t, exec (.imgVerifyDone i) s = .next t ∧ alone t ∧ (t.plane i).boot = { b with load := none } ∧
        shows t code ∧ (t.plane i).scan = p.scan ∧ (t.plane i).rdF Reg.BOOT_EVT 8 8 = 1) ∧
      (code = 3 → l.program = false → ∃ t, exec (.imgVerifyDone i) s = .next t ∧ alone t ∧ (t.plane i).fw = p.fw ∧ (t.plane i).boot.load = none ∧
        (t.plane i).boot.fw (1 - b.running) =
          { st := .valid, svn := n 12 1, step := n 13 1, version := n 8 4, keyId := n 5 1, digest := slice l.bytes 32 32 } ∧
        shows t 3 ∧ (t.plane i).rdF Reg.BOOT_EVT 8 8 = 1) ∧
      (code = 3 → l.program = true → p.isActive = true → s.inStep i = true → exec (.imgVerifyDone i) s =
        .next (s.upd i fun x => x.updBoot fun b => { b with peer := some l.bytes })) ∧
      (code = 3 → l.program = true → p.isActive = false ∨ s.inStep i = false → ∃ t, exec (.imgVerifyDone i) s = .next t ∧ alone t ∧
        (t.plane i).scan.staged = (if p.isActive = true then some ((l.bytes.drop 128).take (n 16 4)) else p.scan.staged) ∧
        (t.plane i).scan.prog = p.scan.prog ∧ (t.plane i).boot.load = none ∧ shows t 3 ∧ (t.plane i).rdF Reg.BOOT_EVT 8 8 = 1)) ∧
    (b.peer = none → exec (.peer i) s = .next s) ∧
    (∀ l, b.peer = some l →
      let pass := (s.plane i.other).imgCheck true l = 3
      ∃ t, exec (.peer i) s = .next t ∧ t.fs = s.fs ∧ (t.plane i).boot.peer = none ∧ (t.plane i).boot.load = none ∧ (t.plane i).rdF Reg.BOOT_EVT 8 8 = 1 ∧
        (pass → shows t 3 ∧ ∀ j, (s.plane j).phase = .ready → (t.plane j).scan.staged = some ((l.drop 128).take (ofLe (slice l 16 4)))) ∧
        (¬ pass → shows t 0x18 ∧ ∀ j, (t.plane j).scan = (s.plane j).scan)) ∧
    (∀ l, b.load = some l → l.verifying = false → l.lastTt + 10000000000 ≤ p.tt s.now → ∃ t, exec (.imgTimeout i) s = .next t ∧ alone t ∧
      (t.plane i).boot = { b with load := none } ∧ shows t 0x17) ∧
    ((∀ l, b.load = some l → l.verifying = true ∨ p.tt s.now < l.lastTt + 10000000000) → exec (.imgTimeout i) s = .next s) ∧
    (fw 1 → (b.fwA.st = .valid → exec (.activate i tag) s = .next (s.upd i fun p => p.updBoot fun b => { b with fwA := { b.fwA with st := .next } })) ∧
      (b.fwA.st ≠ .valid → b.fwB.st = .valid → exec (.activate i tag) s = .next (s.upd i fun p => p.updBoot fun b => { b with fwB := { b.fwB with st := .next } })) ∧
      (b.fwA.st ≠ .valid → b.fwB.st ≠ .valid → exec (.activate i tag) s = .next refused)) ∧
    (fw 2 → (p.fw.st ≠ .trial → exec (.confirm i tag) s = .next refused) ∧
      (p.fw.st = .trial → ∃ t, exec (.confirm i tag) s = .next t ∧ alone t ∧ (t.plane i).fw = { p.fw with st := .confirmed } ∧ (t.plane i).boot.fc = b.fc ∧
        ((b.fw (1 - b.running)).st = .confirmed → ((t.plane i).boot.fw (1 - b.running)).st = .valid))) ∧
    (fw 4 → (tag ≠ 0 → exec (.advance i tag) s = .next s) ∧ (tag = 0 → p.fw.st ≠ .confirmed → exec (.advance i tag) s = .next refused) ∧
      (tag = 0 → p.fw.st = .confirmed → ∃ t, exec (.advance i tag) s = .next t ∧ alone t ∧
        (t.plane i).boot = { b with fc := max b.fc p.fw.svn, revoked := b.revoked ||| BitVec.ofNat 4 (2 ^ min 4 p.fw.keyId - 1) })) ∧
    (p.phase = .ready ∨ p.phase = .unpowered ∨ p.fw.st ≠ .trial → exec (.trialFail i) s = .next s) ∧
    (p.phase ≠ .ready → p.phase ≠ .unpowered → p.fw.st = .trial → ∃ t, exec (.trialFail i) s = .next t ∧ alone t ∧ (t.plane i).phase = .starting ∧
      ((t.plane i).boot.fw b.running).st = .rejected ∧ (t.plane i).rdF Reg.BOOT_EVT 9 9 = 1 ∧
      (t.plane i).boot.running = if (b.fw (1 - b.running)).st = .confirmed then 1 - b.running else b.running)

/-- R357 to R361, R365 to R367: Tarn over the HRP. STORE asks for a store of every dirty page. A store starts where none runs and one is asked
for: it captures its pages under the next SSEQ and leaves the shadow and the journal as they are. Its journal write puts each captured
page into its older slot, shows STORE_SEQ and STORED, answers what waited (a host group, a key commit, an interval), and a power-fail
store puts the plane in PF_HOLD. UNLOCK, SET and RELOCK answer by the password; the eighth failure in a row locks the region's password.
Window words gather in the path's group, which COMMIT commits whole and DISCARD drops. Where the spec leaves it open, the model's choice:
assumptions 43, 44. It concludes that exec answers a next state for tarnStore, storeStart, stored, unlock, set_, relock, winWrite,
hCommit, hDiscard. -/
def Obligations.TarnStoresPasswordsAndHostGroups : Prop :=
  ∀ (s : State) (i : PlaneId) (tag : Tag),
    let p := s.plane i
    let alone (t : State) : Prop := t.plane i.other = s.plane i.other ∧ t.fs = s.fs
    let kept (t : State) : Prop := alone t ∧ (t.plane i).tarn = p.tarn ∧ (t.plane i).regs = p.regs
    (s.writes i tag 0x2#4 Reg.TARN_CTRL 0x100 → ∃ t, exec (.tarnStore i tag) s = .next t ∧ alone t ∧
      (t.plane i).tarn = { p.tarn with nextAll := true } ∧ (t.plane i).regs = p.regs) ∧
    (p.tarn.run ≠ none ∨ (p.tarn.next = [] ∧ p.tarn.nextAll = false) → exec (.storeStart i) s = .next s) ∧
    (p.tarn.run = none → p.tarn.next ≠ [] ∨ p.tarn.nextAll = true → ∃ t r, exec (.storeStart i) s = .next t ∧ alone t ∧
      (t.plane i).regs = p.regs ∧ (t.plane i).tarn.run = some r ∧ r.sseq = p.tarn.lastSseq + 1 ∧ (t.plane i).tarn.lastSseq = p.tarn.lastSseq + 1 ∧
      (t.plane i).tarn.next = [] ∧ (t.plane i).tarn.nextAll = false ∧ (t.plane i).tarn.shadow = p.tarn.shadow ∧
      (t.plane i).tarn.journal = p.tarn.journal ∧ (∀ e ∈ r.todo, e.2 = (t.plane i).tarn.page e.1) ∧ r.pf = p.tarn.nextPf ∧
      (p.tarn.nextAll = true → ∀ n ∈ p.tarn.dirty, n ∈ r.todo.map Prod.fst) ∧
      (p.tarn.nextAll = false → ∀ n ∈ p.tarn.next, n ∈ r.todo.map Prod.fst)) ∧
    (p.tarn.run = none → exec (.stored i) s = .next s) ∧
    (∀ r, p.tarn.run = some r → ∃ t, exec (.stored i) s = .next t ∧ alone t ∧ (t.plane i).tarn.run = none ∧
      (t.plane i).tarn.journal = writeJournal p.tarn.journal r.sseq ∧
      (t.plane i).rd64 Reg.TARN_STORE_SEQ = r.sseq % 2 ^ 64 ∧ (t.plane i).rd64 Reg.TARN_LAST_STORE = s.now % 2 ^ 64 ∧ (t.plane i).rdF Reg.TARN_EVT 8 8 = 1 ∧
      (∀ n v, r.todo.filter (fun e => e.1 == n) = [(n, v)] → let x : ShadowSlot := { sseq := r.sseq, ok := true, val := v }
        (t.plane i).tarn.slots n = (x, (p.tarn.slots n).2) ∨ (t.plane i).tarn.slots n = ((p.tarn.slots n).1, x)) ∧
      (∀ n, (∀ e ∈ r.todo, e.1 ≠ n) → (t.plane i).tarn.slots n = p.tarn.slots n) ∧
      (t.plane i).rdF Reg.FAULT_STAT 12 12 = (if r.pf then 1 else p.rdF Reg.FAULT_STAT 12 12) ∧
      (16 ∉ p.tarn.waitRun → (t.plane i).tarn.sram = p.tarn.sram ∧ (t.plane i).keys = p.keys) ∧
      (∀ k ∈ p.tarn.waitRun, k < 9 → fld ((t.plane i).prd k Reg.TARN_H_STAT) 1 0 = 2 ∧ (t.plane i).rdF Reg.TARN_EVT 11 11 = 1) ∧
      (∀ k ∈ p.tarn.waitRun, 9 ≤ k → k ≠ 16 → (t.plane i).rdF Reg.TACC_EVT 8 8 = 1) ∧
      (∀ q rest, p.tarn.waitRun.filter (fun k => k == 16) = [16] → p.keys.queue = q :: rest → p.keys.run = some .commit → 2 ≤ q.slot →
        (t.plane i).keySlot q.slot = (if (p.keySlot q.slot).staged = none then p.keySlot q.slot else (p.keySlot q.slot).committed) ∧
        ∀ m, m ≠ q.slot → (t.plane i).keySlot m = p.keySlot m)) ∧
    (∀ (region : Fin 8) (write : Bool),
      let idx := 2 * region.val + b1 write
      let pw (op : Nat) : Prop := s.writes i tag 0x3#4 Reg.TARN_PW_CTRL (w32 (region.val + 8 * b1 write + 256 * op))
      let pwd := leBytes 4 (p.prd 0 Reg.TARN_PWD).toNat ++ leBytes 4 (p.prd 0 (Reg.TARN_PWD + 4)).toNat
      let zero : Prop := pwd = List.replicate 8 0
      let held := (p.passwords.find? fun e => e.1 == idx).map Prod.snd
      let shut : Prop := 6 < region.val ∨ idx ∈ p.tarn.locked
      let right : Prop := held = some (sm3 pwd) ∨ (held = none ∧ zero)
      let fails (p : Plane) : Nat := Tab.get (fun _ => 0) p.tarn.fails idx
      let answer (t : State) (code : Nat) : Prop := exec (.unlock i tag region write) s = .next t ∧ alone t ∧ fld ((t.plane i).prd 0 Reg.TARN_PW_CTRL) 13 12 = code ∧
        (t.plane i).passwords = p.passwords
      let setAnswer (t : State) (code : Nat) : Prop := exec (.set_ i tag region write) s = .next t ∧ alone t ∧ fld ((t.plane i).prd 0 Reg.TARN_PW_CTRL) 13 12 = code
      (pw 1 → shut → ∃ t, answer t 3 ∧ (t.plane i).tarn = p.tarn ∧ ((t.plane i).path 0).unlocks = (p.path 0).unlocks) ∧
      (pw 1 → ¬ shut → right → ∃ t, answer t 1 ∧ fails (t.plane i) = 0 ∧ (region.val, b1 write) ∈ ((t.plane i).path 0).unlocks) ∧
      (pw 1 → ¬ shut → ¬ right → fails p < 7 → ∃ t, answer t 2 ∧ fails (t.plane i) = fails p + 1 ∧ ((t.plane i).path 0).unlocks = (p.path 0).unlocks ∧
        (t.plane i).tarn.locked = p.tarn.locked) ∧
      (pw 1 → ¬ shut → ¬ right → 7 ≤ fails p → ∃ t, answer t 2 ∧ idx ∈ (t.plane i).tarn.locked ∧ (t.plane i).rdF Reg.TARN_EVT 10 10 = 1 ∧
        (region.val, b1 write) ∉ ((t.plane i).path 0).unlocks) ∧
      (pw 2 → tag ≠ 0 → ∃ t, setAnswer t 3 ∧ (t.plane i).passwords = p.passwords) ∧
      (pw 2 → tag = 0 → shut ∨ p.regionOpen 0 region.val (b1 write) = false → ∃ t, setAnswer t 3 ∧ (t.plane i).tarn = p.tarn ∧ (t.plane i).regs = p.regs) ∧
      (pw 2 → tag = 0 → ¬ shut → p.regionOpen 0 region.val (b1 write) = true → ∃ t, setAnswer t 1 ∧ passPage ∈ (t.plane i).tarn.next ∧
        (zero → (t.plane i).passwords = p.passwords.filter fun e => e.1 != idx) ∧
        (¬ zero → (t.plane i).passwords = (p.passwords.filter fun e => e.1 != idx) ++ [(idx, sm3 pwd)])) ∧
      (pw 3 → ∃ t, exec (.relock i tag region write) s = .next t ∧ kept t ∧ (region.val, b1 write) ∉ ((t.plane i).path 0).unlocks ∧
        fld ((t.plane i).prd 0 Reg.TARN_PW_CTRL) 13 12 = 1)) ∧
    (∀ (be : BitVec 4) (k : Fin 512) (data : Word), s.writes i tag be (Reg.TARN_WIN k.val) data → be ≠ 0 →
      let off := p.winOffset 0 k.val
      let g := (p.path 0).hostGroup
      let old := ((g.find? fun e => e.1 == off).map Prod.snd).getD (p.reserveWord off)
      let new := (g.filter fun e => e.1 != off) ++ [(off, merge (beMask be) old data)]
      let open_ : Prop := tarnRegion off = 6 ∧ off < 0x4000000 ∧ p.regionOpen 0 6 1 = true
      (¬ open_ → exec (.winWrite i tag be k data) s = .next (s.upd i fun p => p.err Reg.TARN_PAGE)) ∧
      (open_ → 4 * new.length ≤ 65536 → ∃ t, exec (.winWrite i tag be k data) s = .next t ∧ kept t ∧ ((t.plane i).path 0).hostGroup = new) ∧
      (open_ → 65536 < 4 * new.length → ∃ t, exec (.winWrite i tag be k data) s = .next t ∧ alone t ∧ (t.plane i).tarn = p.tarn ∧
        ((t.plane i).path 0).hostGroup = [] ∧ ((t.plane i).path 0).hostOvf = true ∧ (t.plane i).rdF Reg.TARN_EVT 11 11 = 1)) ∧
    (s.writes i tag 0x1#4 Reg.TARN_H_CTRL 1 → ∃ t, exec (.hCommit i tag) s = .next t ∧ alone t ∧ (t.plane i).regs = p.regs ∧
      ((t.plane i).path 0).hostGroup = [] ∧ fld ((t.plane i).prd 0 Reg.TARN_H_STAT) 1 0 = 1 ∧ countPage ∈ (t.plane i).tarn.next ∧ 0 ∈ (t.plane i).tarn.waitNext ∧
      (∀ off v, (p.path 0).hostGroup.filter (fun e => e.1 == off) = [(off, v)] → (t.plane i).reserveWord off = v) ∧
      (∀ off, (∀ e ∈ (p.path 0).hostGroup, e.1 ≠ off) → (t.plane i).reserveWord off = p.reserveWord off)) ∧
    (s.writes i tag 0x1#4 Reg.TARN_H_CTRL 2 → ∃ t, exec (.hDiscard i tag) s = .next t ∧ kept t ∧ ((t.plane i).path 0).hostGroup = [] ∧
      fld ((t.plane i).prd 0 Reg.TARN_H_STAT) 1 0 = 3)

/-- R368 to R377: the recorder. FLUSH puts the staged records into their pages. A chain seal is staged as a record of type 4 with the newest
full page and its CHAIN. FIRST, FIRST_CIRC, NEXT and SEEK show PENDING until they are done: FIRST and SEEK set the cursor, NEXT loads the
next record that the tag may see, its header alone where it is private to another tag, and answers the end of the records or a lost record
where it finds none; a locked region answers 6. APP_NOTE stages a record of type 0x80 with the bytes of APP, and counts a length that is
none. A record that follows lost ones comes after their RECORDS_LOST record, and one that finds the buffer full is lost. Where the spec
leaves it open, the model's choice: assumption 43. It concludes that exec answers a next state for flush, chainSeal, first, firstCirc,
next, seek, recordLoadDone, appNote. -/
def Obligations.RecorderFlushesSealsAndReads : Prop :=
  ∀ (s : State) (i : PlaneId) (tag : Tag),
    let p := s.plane i
    let alone (t : State) : Prop := t.plane i.other = s.plane i.other ∧ t.fs = s.fs
    let staged (t : State) (r : Rec) : Prop := ∃ l, (t.plane i).evr.staged = p.evr.staged ++ l ++ [r] ∧ l.length = (if p.evr.lost = 0 then 0 else 1) ∧
      (∀ y ∈ l, y.type = 5 ∧ y.tag = 0 ∧ y.sev = 2 ∧ y.body = leBytes 4 p.evr.lost) ∧ r.seq = (p.evr.seqNext + l.length) % 2 ^ 32 ∧ (t.plane i).evr.lost = 0
    (s.writes i tag 0x2#4 Reg.EVR_CTRL 0x100 → ∃ t, exec (.flush i tag) s = .next t ∧ alone t ∧ (t.plane i).evr.staged = [] ∧
      (t.plane i).evr.flushed = ((p.evr.staged.foldl (fun e r => e.append p.id r) p.evr).survive).flushed ∧
      (t.plane i).evr.seqNext = p.evr.seqNext ∧ (t.plane i).rdF Reg.EVR_EVT 8 8 = 1 ∧
      recPage p.evr.page ∈ (t.plane i).tarn.next ∧ (t.plane i).tarn.run.isSome = p.tarn.run.isSome) ∧
    (p.phase ≠ .ready → exec (.chainSeal i) s = .next s) ∧
    (p.phase = .ready → ∃ t, exec (.chainSeal i) s = .next t ∧ alone t ∧ (t.plane i).evr.sealTt = p.tt s.now ∧
      let chain := match p.evr.fullPage with | some _ => p.evr.prevChain | none => chainSeed p.id
      (p.evr.seqNext < 2 ^ 32 → p.evr.staging + chain.length + 168 < 196608 → (t.plane i).regs = p.regs ∧
        ∃ r sig, staged t r ∧ r.type = 4 ∧ r.tag = 0 ∧ r.sev = 0 ∧ sig.length = 64 ∧
          r.body = leBytes 4 (p.evr.fullPage.getD 0xFFFFFFFF) ++ leBytes 4 0 ++ chain ++ [BitVec.ofNat 8 (p.rdF Reg.CRYPTO_ATT 7 0), 0, 0, 0] ++ sig)) ∧
    (∀ c op, (c, op) ∈ [(Instr.first i tag, 1), (.firstCirc i tag, 2), (.next i tag, 3), (.seek i tag, 4)] →
      s.writes i tag 0x1#4 Reg.EVR_RD_CTRL (w32 op) → ∃ t, exec c s = .next t ∧ alone t ∧ (t.plane i).regs = p.regs ∧ (t.plane i).evr = p.evr ∧
        ((t.plane i).path 0).recPending = some (op + 8 * tag.toNat) ∧ fld ((t.plane i).prd 0 Reg.EVR_RD_STAT) 2 0 = 7) ∧
    (∀ path : Fin 9,
      let x := p.path path.val
      let done (t : State) (code cursor : Nat) : Prop := exec (.recordLoadDone i path) s = .next t ∧ alone t ∧ (t.plane i).regs = p.regs ∧
        (t.plane i).evr = p.evr ∧ ((t.plane i).path path.val).recPending = none ∧ fld ((t.plane i).prd path.val Reg.EVR_RD_STAT) 2 0 = code ∧
        ((t.plane i).path path.val).cursor = cursor
      let asked (op : Nat) : Prop := x.recPending = some (op + 8 * tag.toNat)
      let open_ (r : Nat) : Prop := p.regionOpen path.val r 0 = true
      let area (r : Nat) := p.evr.all.find? fun y => p.evr.regionOf y == r
      let found := p.evr.all.reverse.find? fun y => y.2.seq == (p.prd path.val Reg.EVR_RD_ARG).toNat
      let rest := p.evr.all.dropWhile fun z => z.2.seq != x.cursor
      let next := rest.find? fun z => z.2.seen tag.toNat
      (x.recPending = none → exec (.recordLoadDone i path) s = .next s) ∧
      (∀ r < 2, asked (1 + r) → ¬ open_ r → ∃ t, done t 6 x.cursor) ∧
      (∀ r < 2, asked (1 + r) → open_ r → area r = none → ∃ t, done t 5 x.cursor) ∧
      (∀ r < 2, ∀ y, asked (1 + r) → open_ r → area r = some y → ∃ t, done t 1 y.2.seq) ∧
      (asked 4 → found = none → ∃ t, done t 5 x.cursor) ∧
      (∀ y, asked 4 → found = some y → ∃ t, if p.regionOpen path.val (p.evr.regionOf y) 0 = true then done t 1 y.2.seq else done t 6 x.cursor) ∧
      (asked 3 → rest = [] → x.cursor = p.evr.seqNext ∨ area 1 = none → ∃ t, done t 3 x.cursor) ∧
      (∀ y, asked 3 → rest = [] → x.cursor ≠ p.evr.seqNext → area 1 = some y → ∃ t, done t 4 y.2.seq) ∧
      (asked 3 → rest ≠ [] → next = none → ∃ t, done t 3 p.evr.seqNext) ∧
      (∀ y, asked 3 → next = some y → ¬ open_ (p.evr.regionOf y) → ∃ t, done t 6 x.cursor) ∧
      (∀ y, asked 3 → next = some y → open_ (p.evr.regionOf y) →
        let hidden := y.2.priv && y.2.tag.toNat != tag.toNat
        ∃ t, done t (if hidden then 2 else 1) ((y.2.seq + 1) % 2 ^ 32) ∧
          ((t.plane i).path path.val).loaded = (if hidden then y.2.bytes.take 20 else y.2.bytes))) ∧
    (∀ (len : BitVec 9) (sev : BitVec 2) (priv : Bool), s.writes i tag 0x7#4 Reg.EVR_APP_CTRL (w32 (len.toNat + 512 * sev.toNat + 2048 * b1 priv + 65536)) →
      (len = 0 ∨ 256 < len.toNat → ∃ t, exec (.appNote i tag len sev priv) s = .next t ∧ alone t ∧ (t.plane i).evr = p.evr ∧
        (t.plane i).rdF Reg.EVR_ERR_CNT 15 0 = satInc 65535 (p.rdF Reg.EVR_ERR_CNT 15 0)) ∧
      (0 < len.toNat → len.toNat ≤ 256 → ∃ t, exec (.appNote i tag len sev priv) s = .next t ∧ alone t ∧
        (p.evr.seqNext < 2 ^ 32 → p.evr.staging + 300 < 196608 → ∃ r, staged t r ∧ r.type = 0x80 ∧ r.tag = tag ∧ r.sev = sev.toNat ∧
          r.body = p.pbytes 0 (Reg.EVR_APP 0) len.toNat ∧ r.priv = (priv && tag != 0)) ∧
        (262144 < p.evr.staging → (t.plane i).evr.lost = p.evr.lost + 1 ∧ (t.plane i).evr.staged = p.evr.staged ∧
          (t.plane i).rdF Reg.EVR_EVT 9 9 = 1)))

/-- R382 to R396: a plane's clock. WRITE_GO and SHIFT stage one adjustment at a time and refuse a time that does not exist. A second boundary
counts one second, or applies the staged write; it starts and then ends a shift; an adjustment that takes effect is recorded. Of the armed
comparators each that matches the new second fires, unless that second is not later than its LAST; a forward step fires what it passed
over LATE; a backward step fires nothing again; a unit not armed keeps its state. ARM sets LAST to none. A stopped crystal stops the clock
of an unpowered plane alone. A periodic unit fires and starts its next period; a PWRON request ends at its time. Nothing here touches the
other plane. Where the spec leaves it open, the model's choice: assumption 47. It concludes that exec answers a next state for writeGo,
shift, rtcSecondBoundary, crystalStop, arm, disarm, periodicWakeFire, pwronRequestEnd, crystalRestart. -/
def Obligations.ClockAlarmsAndWakeRequests : Prop :=
  ∀ (s : State) (i : PlaneId) (tag : Tag),
    let p := s.plane i
    let r := p.rtc
    let alone (t : State) : Prop := t.plane i.other = s.plane i.other ∧ t.fs = s.fs
    let kept (t : State) : Prop := alone t ∧ (t.plane i).regs = p.regs
    let refused := s.upd i fun p => p.err Reg.RTC_PAGE
    let busy : Prop := r.write ≠ none ∨ r.shift ≠ none
    let staged := stagedSecs (p.rd Reg.RTC_SET_TIME) (p.rd Reg.RTC_SET_DATE)
    let go : Prop := s.writes i tag 0x2#4 Reg.RTC_CTRL 0x100
    let armed (u c : Nat) : Prop := p.rdF (Reg.RTC_ALM_STAT u) c c = 1
    let unarmed : Prop := ∀ u < 14, ∀ c < 2, ¬ armed u c
    let second (t : State) : Prop := exec (.rtcSecondBoundary i) s = .next t ∧ alone t
    let wraps : Bool := r.secs + 1 == clockRange
    let next := if wraps then 0 else r.secs + 1
    let shown := (r.write.map Prod.fst).getD next
    let passed := if r.write = none ∧ wraps = true then next else r.secs
    let counts (t : State) (f : RtcSt → RtcSt) : Prop :=
      { (t.plane i).rtc with pwron := r.pwron } = { f r with secs := shown, subTt := p.tt s.now, write := none } ∧
      (unarmed → (t.plane i).rtc.pwron = r.pwron)
    let hits (u c k : Nat) : Prop := p.almMatch u c k = true ∧ p.almAfter u c k = true
    let fires (t : State) (u c late : Nat) : Prop := (t.plane i).rdF (Reg.RTC_ALM_STAT u) (2 + c) (2 + c) = 1 ∧
      (t.plane i).rdF (Reg.RTC_ALM_STAT u) (4 + c) (4 + c) = late ∧ (t.plane i).rdF Reg.RTC_EVT (8 + u) (8 + u) = 1 ∧
      (t.plane i).rd (cLast u c) = BitVec.ofNat 32 shown ∧
      (t.plane i).rdF (Reg.RTC_ALM_STAT u) c c = (if p.rdF (Reg.RTC_ALM_CFG u) c c = 1 then 0 else 1) ∧
      (p.rdF (Reg.RTC_ALM_CFG u) 4 4 = 1 → ∃ e, (t.plane i).rtc.pwron = some e ∧ p.tt s.now + max 1 (p.rdF Reg.RTC_PWRON 7 0) * 10000000 ≤ e)
    let still (t : State) (u c : Nat) : Prop := (t.plane i).rd (cLast u c) = p.rd (cLast u c) ∧
      ∀ n ∈ [c, 2 + c, 4 + c], (t.plane i).rdF (Reg.RTC_ALM_STAT u) n n = p.rdF (Reg.RTC_ALM_STAT u) n n
    let alarms (t : State) : Prop := ∀ u < 14, ∀ c < 2,
      (¬ armed u c → still t u c) ∧
      (armed u c → (∃ k, passed < k ∧ k < shown ∧ hits u c k) → fires t u c 1) ∧
      (armed u c → (∀ k, passed < k → k < shown → ¬ hits u c k) →
        (hits u c shown → fires t u c 0) ∧ (¬ hits u c shown → still t u c))
    (go → busy ∨ staged = none → exec (.writeGo i tag) s = .next refused) ∧
    (∀ n, go → ¬ busy → staged = some n → ∃ t, exec (.writeGo i tag) s = .next t ∧ kept t ∧ (t.plane i).rtc = { r with write := some (n, tag) }) ∧
    (∀ v : BitVec 16, s.writes i tag 0x3#4 Reg.RTC_SHIFT (w32 v.toNat) →
      (busy ∨ v = 0 ∨ v = 0x8000#16 → exec (.shift i tag v) s = .next refused) ∧
      (¬ busy → v ≠ 0 → v ≠ 0x8000#16 → ∃ t, exec (.shift i tag v) s = .next t ∧ kept t ∧
        (t.plane i).rtc = { r with shift := some (v.toInt, tag), shifting := false })) ∧
    (r.stopped = true → exec (.rtcSecondBoundary i) s = .next s) ∧
    (r.stopped = false → ∃ t, second t ∧ alarms t ∧ (wraps = true → r.write = none → (t.plane i).rdF Reg.RTC_EVT 24 24 = 1) ∧
      (∀ n x, r.write = some (n, x) → (t.plane i).rdF Reg.RTC_EVT 25 25 = 1 ∧ counts t fun q => { q with osf := false, lost := false }) ∧
      (r.write = none → r.shift = none → counts t (fun q => { q with osf := r.osf || wraps }) ∧
        (unarmed → wraps = false → (t.plane i).regs = p.regs)) ∧
      (∀ k x, r.write = none → r.shift = some (k, x) →
        (r.shifting = false → counts t (fun q => { q with osf := r.osf || wraps, shifting := true }) ∧
          (unarmed → wraps = false → (t.plane i).regs = p.regs)) ∧
        (r.shifting = true → (t.plane i).rdF Reg.RTC_EVT 25 25 = 1 ∧ (t.plane i).rdF Reg.RTC_EVT 26 26 = 1 ∧
          counts t fun q => { q with osf := r.osf || wraps, shift := none, shifting := false }))) ∧
    (r.stopped = false → ∀ n x, r.write = some (n, x) → p.evr.lost = 0 → p.evr.staging + 1200 < 196608 → p.phase ≠ .unpowered →
      ∃ t q rest, second t ∧ (t.plane i).evr.staged = p.evr.staged ++ q :: rest ∧ q.type = 3 ∧ q.body.take 18 =
        leBytes 8 (next * 32768) ++ leBytes 8 (n * 32768) ++ [if r.osf then 2 else 0, BitVec.ofNat 8 x.toNat]) ∧
    (r.crystal = false → exec (.crystalStop i) s = .next s) ∧
    (r.crystal = true → ∃ t, exec (.crystalStop i) s = .next t ∧ alone t ∧ (t.plane i).rdF Reg.RTC_EVT 24 24 = 1 ∧
      (t.plane i).rtc = { r with crystal := false, stopped := decide (p.phase = .unpowered), osf := true }) ∧
    (∃ t, exec (.crystalRestart i) s = .next t ∧ kept t ∧
      (t.plane i).rtc = { r with crystal := true, stopped := false, subTt := if r.stopped then p.tt s.now else r.subTt }) ∧
    (∀ (u : Fin 14) (comps : BitVec 2),
      (s.writes i tag 0x1#4 (Reg.RTC_ALM_CTRL u.val) (w32 comps.toNat) → ∃ t, exec (.arm i tag u comps) s = .next t ∧ alone t ∧
        (t.plane i).rtc = r ∧ ∀ c < 2, ((t.plane i).rdF (Reg.RTC_ALM_STAT u.val) c c = if comps.getLsbD c then 1 else p.rdF (Reg.RTC_ALM_STAT u.val) c c) ∧
          ((t.plane i).rd (cLast u.val c) = if comps.getLsbD c then 0xFFFFFFFF#32 else p.rd (cLast u.val c))) ∧
      (s.writes i tag 0x1#4 (Reg.RTC_ALM_CTRL u.val) (w32 (4 * comps.toNat)) → ∃ t, exec (.disarm i tag u comps) s = .next t ∧ alone t ∧
        (t.plane i).rtc = r ∧ ∀ c < 2, ((t.plane i).rdF (Reg.RTC_ALM_STAT u.val) c c = if comps.getLsbD c then 0 else p.rdF (Reg.RTC_ALM_STAT u.val) c c) ∧
          ((t.plane i).rd (cLast u.val c) = p.rd (cLast u.val c)))) ∧
    (∀ k : Fin 2,
      (p.rdF (Reg.RTC_PER_CFG k.val) 0 0 = 0 → exec (.periodicWakeFire i k) s = .next s) ∧
      (p.rdF (Reg.RTC_PER_CFG k.val) 0 0 = 1 → ∃ t, exec (.periodicWakeFire i k) s = .next t ∧ alone t ∧
        (t.plane i).rdF Reg.RTC_EVT (22 + k.val) (22 + k.val) = 1 ∧
        (t.plane i).rtc.perTt = r.perTt.set k.val (r.perTt.getD k.val 0 + r.perLen.getD k.val 256 * 1000000000 / 256) ∧
        (t.plane i).rtc.perLen = r.perLen.set k.val (p.rdF (Reg.RTC_PER_PERIOD k.val) 24 0) ∧
        (p.rdF (Reg.RTC_PER_CFG k.val) 1 1 = 0 → (t.plane i).rtc.pwron = r.pwron) ∧
        (p.rdF (Reg.RTC_PER_CFG k.val) 1 1 = 1 →
          (t.plane i).rtc.pwron = some (max (p.tt s.now + max 1 (p.rdF Reg.RTC_PWRON 7 0) * 10000000) (r.pwron.getD 0))))) ∧
    (∃ t, exec (.pwronRequestEnd (some i)) s = .next t ∧ kept t ∧ (t.plane i).rtc = { r with pwron := r.pwron.filter fun e => decide (p.tt s.now < e) }) ∧
    (exec (.pwronRequestEnd none) s = .next (s.field fun f => { f with pwron := f.pwron.filter fun e => decide (s.ttNow < e) }))

/-- R398 to R403, R407: one cycle of a Basin, in which any number of masters make a request each. A request is refused where the Basin is not
ON, is being cleared, or R399 does not let the master make it; that is counted, and a hardware master's raises a plane fault. Of the
others the one whose master has the lowest code is served: a write stores its word and no other; a read returns the word, corrected and
counted with a single-bit error, uncorrectable with a double-bit one. The others are stalled, or their write is dropped and counted where
it is to the word that the served write stores. Where the spec leaves it open, the model's choice: assumptions 48, 49. It concludes that
exec answers a next state for basinAccess. -/
def Obligations.BasinCyclesServeRefuseAndCollide : Prop :=
  ∀ (s : State) (i : PlaneId) (b : Fin 64) (reqs : List BasinReq), (reqs.map BasinReq.master).Nodup →
    let p := s.plane i
    let x := p.basin b.val
    let opens (r : BasinReq) : Bool := x.st == 0 && !x.clearing && x.permits r.master r.write
    let at_ (r : BasinReq) : Nat := r.word % basinWords b.val
    let served (v : BasinReq) : Prop := v ∈ reqs ∧ opens v = true ∧ ∀ r ∈ reqs, opens r = true → v.master.val ≤ r.master.val
    let collides (v r : BasinReq) : Bool := opens r && r != v && v.write && r.write && at_ v == at_ r
    let hard (r : BasinReq) : Bool := r.master.val < 5 || r.master.val == 9
    let counted (t : State) (reg n : Nat) : Prop := (t.plane i).rdF reg 15 0 = min 65535 (p.rdF reg 15 0 + n)
    let was (t : State) (r : BasinReq) (a : BasinAnswer) : Prop := (r.master.val, a) ∈ (t.plane i).mem.answers
    let still (t : State) : Prop := (t.plane i).mem.words = p.mem.words
    let only (t : State) (r : BasinReq) : Prop := (t.plane i).word b.val (at_ r) = r.data ∧
      ∀ c w, c < 64 → w < 131072 → (c ≠ b.val ∨ w ≠ at_ r) → (t.plane i).word c w = p.word c w
    ∃ t, exec (.basinAccess i b reqs) s = .next t ∧ (t.plane i.other).mem = (s.plane i.other).mem ∧
      (t.plane i).mem.answers.map Prod.fst = reqs.map (fun r => r.master.val) ∧
      (∀ r ∈ reqs, opens r = false → was t r .refused ∧ (t.plane i).rdF Reg.MEM_EVT 13 13 = 1) ∧
      counted t Reg.MEM_REFUSED_CNT (reqs.countP fun r => !opens r) ∧
      (p.phase ≠ .unpowered → (∃ r ∈ reqs, opens r = false ∧ hard r = true) → (t.plane i).rdF Reg.FAULT_PLANE_FLT 5 5 = 1) ∧
      ((∀ r ∈ reqs, opens r = false) → still t ∧ counted t Reg.MEM_COLLIDE_CNT 0) ∧
      (∀ v, served v →
        (∀ r ∈ reqs, r ≠ v → opens r = true → was t r (if collides v r then .collided else .stalled)) ∧
        counted t Reg.MEM_COLLIDE_CNT (reqs.countP (collides v)) ∧
        ((∃ r ∈ reqs, collides v r = true) → (t.plane i).rdF Reg.MEM_EVT 10 10 = 1) ∧
        (v.write = true → was t v .done ∧ only t v ∧ counted t Reg.MEM_CE_CNT 0 ∧ counted t Reg.MEM_UE_CNT 0) ∧
        (v.write = false → still t ∧
          (v.ecc = 0 → was t v (.data (p.word b.val (at_ v))) ∧ counted t Reg.MEM_CE_CNT 0 ∧ counted t Reg.MEM_UE_CNT 0) ∧
          (v.ecc = 1 → was t v (.data (p.word b.val (at_ v))) ∧ (t.plane i).rdF Reg.MEM_EVT 8 8 = 1 ∧ counted t Reg.MEM_CE_CNT 1) ∧
          (v.ecc = 2 → was t v .uncorrectable ∧ (t.plane i).rdF Reg.MEM_EVT 9 9 = 1 ∧ counted t Reg.MEM_UE_CNT 1 ∧
            (basinFixed b.val = true → (t.plane i).rdF Reg.FAULT_PLANE_FLT 4 4 = 1))) ∧
        ((∀ r ∈ reqs, opens r = true ∨ hard r = false) → (v.write = true ∨ v.ecc ≠ 2 ∨ basinFixed b.val = false) →
          (t.plane i).rd Reg.FAULT_PLANE_FLT = p.rd Reg.FAULT_PLANE_FLT) ∧
        ((∀ r ∈ reqs, opens r = true ∧ collides v r = false) → v.write = true ∨ v.ecc = 0 → (t.plane i).regs = p.regs))

/-- R404 to R418: a write of B_CFG sets the selected Basin alone, clears it where its tag changes while it holds content, and is refused for a
fixed Basin or a master that does not exist. A clear or wake ends with the Basin all 0. A scrub counts what it finds; a region test moves
to the next region and takes a failing Basin out of use; telemetry shows fans, temperatures and cells; RUN.NOW and an overdue activity are
kept by activity. Where the spec leaves it open, the model's choice: assumptions 6, 48, 50. It concludes that exec answers a next state
for bCfgWrite, basinClearDone, scrub, regionTest, telemetry, runNow, bkgDeferred. -/
def Obligations.BasinsAreAllocatedClearedAndChecked : Prop :=
  ∀ (s : State) (i : PlaneId) (tag : Tag),
    let p := s.plane i
    let alone (t : State) : Prop := t.plane i.other = s.plane i.other ∧ t.fs = s.fs
    let held : Prop := p.red.role = .active ∨ p.red.role = .standby
    (∀ (be : BitVec 4) (data : Word), s.writes i tag be Reg.MEM_B_CFG data → be = 0 → exec (.bCfgWrite i tag be data) s = .next s) ∧
    (∀ (be : BitVec 4) (data : Word), s.writes i tag be Reg.MEM_B_CFG data → be ≠ 0 →
      let b := p.prdF 0 Reg.MEM_SEL 5 0
      let x := p.basin b
      let m := beMask be &&& 0x03FFFFFF#32
      let new := merge m x.cfg data
      let master (n : Nat) : Prop := n ≤ 9 ∨ n = 15
      let legal : Prop := basinFixed b = false ∧ master (fld new 3 0) ∧ master (fld new 7 4) ∧ fld new 23 18 ≠ 63
      (¬ legal → exec (.bCfgWrite i tag be data) s = .next (s.upd i fun p => p.err Reg.MEM_PAGE)) ∧
      (legal → ¬ held → ∃ t, exec (.bCfgWrite i tag be data) s = .next t ∧ alone t ∧ ((t.plane i).basin b).cfg = new ∧
        (∀ c, c ≠ b → (t.plane i).basin c = p.basin c) ∧ (∀ c w, c ≠ b → w < 131072 → (t.plane i).word c w = p.word c w) ∧
        (fld new 23 18 ≠ fld x.cfg 23 18 → ∀ w < 131072, (t.plane i).word b w = 0 ∨ x.st = 2 ∨ x.st = 3) ∧
        (fld new 23 0 ≠ fld x.cfg 23 0 → (t.plane i).rdF Reg.MEM_EVT 12 12 = 1) ∧ (fld new 23 0 = fld x.cfg 23 0 → (t.plane i).regs = p.regs)) ∧
      (legal → held → ∃ t, exec (.bCfgWrite i tag be data) s = .next t ∧ alone t ∧ ((t.plane i).basin b).cfg = setFld new 25 24 (fld x.cfg 25 24) ∧
        (bit m 24 = true → (t.plane i).rdF Reg.MEM_ERR_CNT 15 0 = satInc 65535 (p.rdF Reg.MEM_ERR_CNT 15 0)))) ∧
    (∀ b : Fin 64,
      let x := p.basin b.val
      (x.clearing = false → x.st ≠ 3 → exec (.basinClearDone i b) s = .next s) ∧
      (x.clearing = true ∨ x.st = 3 → ∃ t, exec (.basinClearDone i b) s = .next t ∧ alone t ∧ (t.plane i).regs = p.regs ∧
        (t.plane i).basin b.val = { x with clearing := false, left := 0, st := if x.st = 3 then 0 else x.st } ∧
        (∀ w < 131072, (t.plane i).word b.val w = 0) ∧ ∀ c w, c ≠ b.val → w < 131072 → (t.plane i).word c w = p.word c w)) ∧
    (∀ (b : Fin 64) (l : List (Nat × Bool)),
      let single := l.countP fun e => !e.2
      let double := l.countP fun e => e.2
      let runs : Prop := (p.basin b.val).st = 0 ∧ p.bkgOn 0 = true
      (¬ runs → exec (.scrub i b l) s = .next s) ∧
      (runs → ∃ t, exec (.scrub i b l) s = .next t ∧ (t.plane i).mem.words = p.mem.words ∧
        Tab.get (fun _ => 0) (t.plane i).bkg.scrubTt b.val = p.tt s.now ∧
        (t.plane i).rdF Reg.MEM_CE_CNT 15 0 = min 65535 (p.rdF Reg.MEM_CE_CNT 15 0 + single) ∧
        (t.plane i).rdF Reg.MEM_UE_CNT 15 0 = min 65535 (p.rdF Reg.MEM_UE_CNT 15 0 + double) ∧
        (t.plane i).rdF Reg.MEM_EVT 8 8 = (if single = 0 then p.rdF Reg.MEM_EVT 8 8 else 1) ∧
        (t.plane i).rdF Reg.MEM_EVT 9 9 = (if double = 0 then p.rdF Reg.MEM_EVT 9 9 else 1) ∧
        (basinFixed b.val = true → double ≠ 0 → (t.plane i).rdF Reg.FAULT_PLANE_FLT 4 4 = 1) ∧
        (basinFixed b.val = false ∨ double = 0 → alone t ∧ (t.plane i).rd Reg.FAULT_PLANE_FLT = p.rd Reg.FAULT_PLANE_FLT))) ∧
    (let b := p.rdF Reg.BKG_TEST_POS 5 0
     let r := p.rdF Reg.BKG_TEST_POS 29 16
     let last : Prop := r + 1 = basinWords b / 8
     let moved (t : State) : Prop := ((¬ last → (t.plane i).rdF Reg.BKG_TEST_POS 5 0 = b ∧ (t.plane i).rdF Reg.BKG_TEST_POS 29 16 = (r + 1) % 2 ^ 14) ∧
       (last → (t.plane i).rdF Reg.BKG_TEST_POS 5 0 = (b + 1) % 64 ∧ (t.plane i).rdF Reg.BKG_TEST_POS 29 16 = 0))
     (p.bkgOn 1 = false → ∀ pass, exec (.regionTest i pass) s = .next s) ∧
     (p.bkgOn 1 = true → ∃ t, exec (.regionTest i true) s = .next t ∧ alone t ∧ moved t ∧ (t.plane i).mem = p.mem) ∧
     (p.bkgOn 1 = true → ∃ t, exec (.regionTest i false) s = .next t ∧ moved t ∧ ((t.plane i).basin b).fault = true ∧
       (t.plane i).rdF Reg.MEM_EVT 11 11 = 1 ∧ (basinFixed b = true → (t.plane i).rdF Reg.FAULT_PLANE_FLT 4 4 = 1))) ∧
    (∀ m : Telemetry,
      ((s.plane s.lead).bkgOn 5 = false → exec (.telemetry m) s = .next s) ∧
      ((s.plane s.lead).bkgOn 5 = true → p.phase = .ready → ∃ t : State, exec (.telemetry m) s = .next (if s.fs.power.cells &&& ~~~m.cells = 0 then t else t.availFall) ∧ t.fs.power.cells = m.cells ∧
        (t.plane i).rd Reg.FAULT_FANS = BitVec.ofNat 32 (m.run.toNat + 256 * m.fitted.toNat) ∧
        (t.plane i).rd Reg.FAULT_TEMP = BitVec.ofNat 32 (m.intake.toNat + 256 * m.hot.toNat) ∧
        (∀ n < 4, (t.plane i).rdF Reg.FAULT_FIELD_FLT n n = if m.cells.getLsbD n then 0 else 1) ∧
        (t.plane i).rdF Reg.FAULT_FIELD_FLT 4 4 = (if m.fitted &&& ~~~m.run = 0 then 0 else 1) ∧
        (t.plane i).rdF Reg.FAULT_FIELD_FLT 5 5 = (if 50 < m.intake.toInt ∨ s.fs.power.hot = true then 1 else 0))) ∧
    (∀ acts : BitVec 6, s.writes i tag 0x1#4 Reg.BKG_RUN (w32 acts.toNat) → ∃ t, exec (.runNow i tag acts) s = .next t ∧ alone t ∧
      (t.plane i).regs = p.regs ∧ ∀ a < 6, (a ∈ (t.plane i).bkg.run ↔ a ∈ p.bkg.run ∨ acts.getLsbD a = true)) ∧
    (∀ act : Fin 6,
      let late : Prop := p.overdue s.fs act.val s.now = true ∧ p.rdF Reg.BKG_DEFER act.val act.val = 0
      (¬ late → exec (.bkgDeferred i act) s = .next s) ∧
      (late → ∃ t, exec (.bkgDeferred i act) s = .next t ∧ alone t ∧ (t.plane i).rdF Reg.BKG_DEFER act.val act.val = 1 ∧ (t.plane i).rdF Reg.BKG_EVT 8 8 = 1 ∧
        (t.plane i).rdF Reg.BKG_DEFER_CNT 15 0 = satInc 65535 (p.rdF Reg.BKG_DEFER_CNT 15 0)))

/-- The memories of a plane keep their canonical form (the model's own form of them) under the commands that act on them. Where the spec
leaves it open, the model's choice: assumption 8. -/
def Obligations.MemoriesKeepTheirCanonicalForm : Prop :=
  ∀ (s t : State) (i : PlaneId) (b : Fin 64) (reqs : List BasinReq) (l : List (Nat × Bool)) (pass : Bool) (c : Instr),
    c ∈ [Instr.basinAccess i b reqs, .basinClearDone i b, .scrub i b l, .regionTest i pass, .storeStart i, .stored i, .chainSeal i] →
    Memory.wf (s.plane i) = true → exec c s = .next t → Memory.wf (t.plane i) = true

/-- R419, R420, R426 to R433: starts. A module start resets both planes and the field side, and keeps what Tarn's cells, the fuses and a
supplied backup domain hold. A plane start recalls Tarn and then reaches READY with its cause shown and its tests' flags. A plane restart
leaves step and stores; on the active plane it is a Swap Drill and needs a standby in step. A module restart is the active plane's; it
disables admission at b, sheds 2,048 ticks later and resets when both stores are complete. A watchdog resets the plane at once. A failed
supply starts the power-fail sequence once; a stop leaves the plane unpowered; a return of the mains after a shed restarts the module.
Where the spec leaves it open, the model's choice: assumptions 7, 51. It concludes that exec answers a next state for modulePowerOn,
planeStart, planeRestart, moduleRestartWarm, moduleRestartCold, moduleRestartDisable, moduleReset, watchdog, supplyMonitorFail,
supercapStop, mainsReturnRestart, holdupTest. -/
def Obligations.StartsAndRestartsRunInOrder : Prop :=
  ∀ (s : State) (i : PlaneId) (tag : Tag),
    let p := s.plane i
    let alone (t : State) : Prop := t.plane i.other = s.plane i.other ∧ t.fs = s.fs
    let reset (t : State) (j : PlaneId) (cause : StartCause) (cold : Bool) : Prop := (t.plane j).phase = .starting ∧ (t.plane j).start.cause = cause ∧
      (t.plane j).start.cold = cold ∧ (t.plane j).red.role = .offline ∧ (t.plane j).tarn.shadow = (s.plane j).tarn.cut.shadow ∧
      (t.plane j).tarn.journal = (s.plane j).tarn.journal ∧ (t.plane j).keys.bank = (s.plane j).keys.bank ∧ (t.plane j).mem.words = [] ∧ (t.plane j).cfgQ = []
    let moduleStarts (t : State) (cause : StartCause) (cold : Bool) : Prop := t.fs = { per := s.fs.per } ∧ t.now = s.now ∧ ∀ j, reset t j cause cold
    let goneFrom (t : State) : Prop := t.plane i.other = (s.plane i.other).wrF Reg.RED_SYNC 1 1 0 ∧ t.fs = s.fs
    let op (n : Nat) : Prop := s.writes i tag 0x3#4 Reg.FAULT_RESTART (w32 (0xA500 + n))
    let refused := s.upd i Plane.restartRefused
    let accepted (t : State) : Prop := (t.plane i).rdF Reg.FAULT_RESTART 25 24 = 1
    (∀ ba bb, (s.a.phase = .unpowered → s.b.phase = .unpowered → ∃ t, exec (.modulePowerOn ba bb) s = .next t ∧ moduleStarts t .powerOn false ∧
        (t.a.rtc.secs = if ba then s.a.rtc.secs else 0) ∧ (t.b.rtc.secs = if bb then s.b.rtc.secs else 0) ∧ (ba = false → t.a.rtc.osf = true) ∧
        (ba = true → t.a.rtc.osf = s.a.rtc.osf)) ∧
      (s.a.phase ≠ .unpowered ∨ s.b.phase ≠ .unpowered → exec (.modulePowerOn ba bb) s = .next s)) ∧
    (∀ m : StartMeas,
      (p.phase = .ready → exec (.planeStart i m) s = .next s) ∧
      (p.phase = .starting → ∃ t, exec (.planeStart i m) s = .next t ∧ t.plane i.other = s.plane i.other ∧ (t.plane i).phase = .recalled ∧
        (p.tarn.recall.2 = [] → (t.plane i).tarn.sram = p.tarn.recall.1) ∧
        t.fs = { s.fs with due := s.fs.due ++ [(s.now + 1, .planeStart i m)] }) ∧
      (p.phase = .unpowered → ∃ t, exec (.planeStart i m) s = .next t ∧ (t.plane i).phase = .recalled ∧ (t.plane i).start.cause = .powerOn ∧
        (t.plane i).red.role = .offline ∧ t.plane i.other = (s.plane i.other).wrF Reg.RED_SYNC 1 1 0 ∧
        t.fs = { s.fs with due := s.fs.due ++ [(s.now + 1, .planeStart i m)] }) ∧
      (p.phase = .recalled → ∃ t, exec (.planeStart i m) s = .next t ∧ (t.plane i).phase = .ready ∧ (t.plane i).red.role = p.red.role ∧
        (t.plane i).rdF Reg.FAULT_START 2 0 = p.start.cause.num ∧ (t.plane i).rdF Reg.FAULT_START 3 3 = p.start.cold.toNat ∧
        (t.plane i).rdF Reg.FAULT_HOLDUP 15 0 = min 65535 m.holdup ∧ (m.holdup < 2000 → (t.plane i).rdF Reg.FAULT_WARN 4 4 = 1) ∧
        (m.kat = false → (t.plane i).rdF Reg.FAULT_PLANE_FLT 0 0 = 1) ∧ (m.copy0 = none → m.copy1 = none → (t.plane i).rdF Reg.FAULT_PLANE_FLT 1 1 = 1))) ∧
    (op 1 → p.isActive = false → p.start.restart = none → ∃ t, exec (.planeRestart i tag) s = .next t ∧ accepted t ∧ (t.plane i).red.role = .offline ∧
      (t.plane i).start.restart = some (.planeCmd, tag) ∧ (t.plane i).tarn.nextAll = true ∧ (t.plane i).evr.staged = []) ∧
    (op 1 → p.isActive = false → ∀ r, p.start.restart = some r → ∃ t, exec (.planeRestart i tag) s = .next t ∧ accepted t ∧ alone t ∧
      (t.plane i).start = p.start ∧ (t.plane i).red = p.red) ∧
    (op 1 → p.isActive = true → s.inStep i = false ∨ p.red.drill ≠ none → exec (.planeRestart i tag) s = .next refused) ∧
    (op 1 → p.isActive = true → s.inStep i = true → p.red.drill = none → ∃ t d, exec (.planeRestart i tag) s = .next t ∧ accepted t ∧
      (t.plane i).red.drill = some d ∧ d % 2048 = 0 ∧ s.now + 8 * 2048 ≤ d ∧ d < s.now + 9 * 2048 ∧ (t.plane i).start.drillThen = some tag ∧
      (t.plane i).red.role = .active) ∧
    (∀ c n, (c, n) ∈ [(Instr.moduleRestartWarm i tag, 2), (.moduleRestartCold i tag, 3)] → op n →
      (p.isActive = false ∨ s.fs.restart ≠ none → exec c s = .next refused) ∧
      (p.isActive = true → s.fs.restart = none → ∃ t b, exec c s = .next t ∧ accepted t ∧ t.plane i.other = s.plane i.other ∧
        t.fs = { s.fs with restart := some { at_ := b, cold := n == 3, tag := tag } } ∧ b % 2048 = 0 ∧ s.now + 2 * 2048 ≤ b ∧ b < s.now + 3 * 2048)) ∧
    (∀ r, s.fs.restart = some r →
      (r.step = 0 → s.now < r.at_ ∨ s.now % 2048 ≠ 0 ∨ s.fs.power.slw = true → exec .moduleRestartDisable s = .next s) ∧
      (r.step = 0 → r.at_ ≤ s.now → s.now % 2048 = 0 → s.fs.power.slw = false → ∃ t, exec .moduleRestartDisable s = .next t ∧
        t.fs = { s.fs with restart := some { r with at_ := s.now, step := 1 } } ∧ ∀ j, (s.plane j).phase = .ready → (t.plane j).weir.stopped = true) ∧
      (r.step = 1 → s.now < r.at_ + 2048 → exec .moduleRestartDisable s = .next s) ∧
      (r.step = 1 → r.at_ + 2048 ≤ s.now → ∃ t, exec .moduleRestartDisable s = .next t ∧ t.fs.power.shed = true ∧ t.fs.power.shedAt = s.now ∧
        (∃ q, t.fs.restart = some q ∧ q.step = 2 ∧ q.cold = r.cold) ∧ ∀ j, (s.plane j).live = true → (t.plane j).start.pfAt = some s.now) ∧
      (r.step = 2 → (∀ j, (s.plane j).phase = .ready → (s.plane j).pfHold = true) ∨ r.shedTt + 200000000 ≤ s.ttNow →
        ∃ t, exec .moduleReset s = .next t ∧ moduleStarts t .moduleCmd r.cold) ∧
      (r.step = 2 → (∃ j, (s.plane j).phase = .ready ∧ (s.plane j).pfHold = false) → s.ttNow < r.shedTt + 200000000 → exec .moduleReset s = .next s) ∧
      (2 ≤ r.step → exec .moduleRestartDisable s = .next s) ∧ (r.step ≠ 2 → exec .moduleReset s = .next s)) ∧
    (s.fs.restart = none → exec .moduleRestartDisable s = .next s ∧ exec .moduleReset s = .next s) ∧
    (p.phase = .unpowered → exec (.watchdog i) s = .next s) ∧
    (p.phase ≠ .unpowered → ∃ t, exec (.watchdog i) s = .next t ∧ goneFrom t ∧ reset t i .watchdog false) ∧
    (p.live = false → exec (.supplyMonitorFail i) s = .next s) ∧
    (p.live = true → ∃ t, exec (.supplyMonitorFail i) s = .next t ∧ (t.plane i).start.pfAt = some s.now ∧ (t.plane i).tarn.nextAll = true ∧
      (t.plane i).tarn.nextPf = true ∧ (t.plane i).evr.staged = [] ∧ (t.plane i).rd Reg.FAULT_PF = 0) ∧
    (p.start.pfAt = none → exec (.supercapStop i) s = .next s) ∧
    (∀ n, p.start.pfAt = some n → ∃ t, exec (.supercapStop i) s = .next t ∧ goneFrom t ∧ (t.plane i).phase = .unpowered ∧ (t.plane i).red.role = .offline ∧
      (t.plane i).tarn = p.tarn.cut ∧
      (t.plane i).rtc.stopped = !p.rtc.crystal) ∧
    (∀ n, s.fs.power.okTt = some n → s.fs.power.shed = true → s.fs.power.slw = false → n + 1000000000 ≤ s.ttNow → s.bothRun → s.a.pfHold = true → s.b.pfHold = true →
      ∃ t, exec .mainsReturnRestart s = .next t ∧ moduleStarts t .mainsReturn false) ∧
    (s.fs.power.shed = false ∨ s.fs.power.slw = true ∨ (∀ n, s.fs.power.okTt = some n → s.ttNow < n + 1000000000) ∨
        (∃ j, (s.plane j).phase ≠ .ready ∨ (s.plane j).pfHold = false) → exec .mainsReturnRestart s = .next s) ∧
    (∀ ms, (p.phase ≠ .ready → exec (.holdupTest i ms) s = .next s) ∧
      (p.phase = .ready → ∃ t, exec (.holdupTest i ms) s = .next t ∧ alone t ∧ (t.plane i).rdF Reg.FAULT_HOLDUP 15 0 = min 65535 ms ∧
        (t.plane i).rdF Reg.FAULT_WARN 4 4 = if ms < 2000 then 1 else 0))

/-- R434 to R437: fault flags and the relay. A plane fault or a warning is shown by the plane it arises in, a field fault by both; AUTHORITY,
STAMPER and WARN.RECALL stay until the next start. A plane with a fault that is not active restarts by itself after 10 s, at most three
times an hour. RELAY.TEST drops the relay of the holder until the test ends; the relay then follows the flags. Where the spec leaves it
open, the model's choice: assumption 52. It concludes that exec answers a next state for faultRaised, faultCleared, autoRestart,
relayTest, relayTestEnd. -/
def Obligations.FaultFlagsAndTheRelay : Prop :=
  ∀ (s : State) (i : PlaneId) (tag : Tag) (bit : Fin 13),
    let p := s.plane i
    let n := bit.val
    let raised (reg : Fin 3) := exec (.faultRaised i reg bit) s
    let cleared (reg : Fin 3) := exec (.faultCleared i reg bit) s
    let flag (t : State) (j : PlaneId) (a : Nat) : Nat := (t.plane j).rdF a n n
    (p.phase ≠ .ready ∨ 10 ≤ n → raised 0 = .next s) ∧
    (p.phase = .ready → n < 10 → ∃ t, raised 0 = .next t ∧ flag t i Reg.FAULT_PLANE_FLT = 1 ∧ (p.isActive = false ∨ s.inStep i = false → t.fs = s.fs) ∧ (p.red.role = .standby → (t.plane i).red.role = .resync) ∧
      (p.isActive = true → s.inStep i = true → (t.plane i).red.yield_ = some ((halfOf s.now + 1) * 2048)) ∧
      (p.isActive = true → s.inStep i = false → t.plane i.other = s.plane i.other)) ∧
    (∃ u : State, raised 1 = .next (u.fieldFault n) ∧ u.fs = s.fs ∧ ∀ j, (s.plane j).phase = .ready → flag u j Reg.FAULT_FIELD_FLT = 1) ∧
    (n < 7 → p.phase = .ready → ∃ t, raised 2 = .next t ∧ flag t i Reg.FAULT_WARN = 1 ∧ t.plane i.other = s.plane i.other ∧ t.fs = s.fs) ∧
    (7 ≤ n ∨ p.phase ≠ .ready → raised 2 = .next s ∧ cleared 2 = .next s) ∧
    (cleared 0 = .next s) ∧
    (n = 10 ∨ n = 11 → cleared 1 = .next s) ∧
    (n = 5 → ∃ t, cleared 1 = .next t ∧ t.fs = { s.fs with power := { s.fs.power with hot := false } } ∧
      (s.fs.power.intake ≤ 50 → ∀ j, (s.plane j).phase = .ready → flag t j Reg.FAULT_FIELD_FLT = 0) ∧
      (50 < s.fs.power.intake → t.a = s.a ∧ t.b = s.b)) ∧
    (n ≠ 5 → n ≠ 10 → n ≠ 11 → ∃ t, cleared 1 = .next t ∧ (∀ j, (s.plane j).phase = .ready → flag t j Reg.FAULT_FIELD_FLT = 0) ∧
      (4 ≤ n → n ≠ 9 → t.fs = s.fs) ∧ (n = 9 → t.fs = { s.fs with canFlt := false }) ∧ (n < 4 → t.fs.power.cells.getLsbD n = true ∧ t.fs.ports = s.fs.ports)) ∧
    (n = 3 → cleared 2 = .next s) ∧
    (n < 7 → n ≠ 3 → p.phase = .ready → ∃ t, cleared 2 = .next t ∧ flag t i Reg.FAULT_WARN = 0 ∧ t.plane i.other = s.plane i.other ∧ t.fs = s.fs) ∧
    ((∀ e, p.start.fltTt = some e → p.tt s.now < e + 10000000000) ∨ p.isActive = true ∨ p.live = false ∨ p.rdF Reg.FAULT_RESTART 16 16 = 0 ∨ p.healthy ∨
        3 ≤ p.recentAutos.length ∨ p.start.restart ≠ none → exec (.autoRestart i) s = .next s) ∧
    (∀ e, p.start.fltTt = some e → e + 10000000000 ≤ p.tt s.now → p.live = true → p.isActive = false → ¬ p.healthy → p.rdF Reg.FAULT_RESTART 16 16 = 1 →
      p.recentAutos.length < 3 → p.start.restart = none → ∃ t, exec (.autoRestart i) s = .next t ∧ (t.plane i).start.restart = some (.automatic, 0) ∧
        (t.plane i).red.role = .offline ∧ (t.plane i).start.autos = p.recentAutos ++ [p.rtc.secs] ∧ (t.plane i).tarn.nextAll = true) ∧
    (s.writes i tag 0x2#4 Reg.FAULT_RELAY 0x100 → ∃ t, exec (.relayTest i tag) s = .next t ∧
      (t.plane i).start = { p.start with relayTest := some (p.tt s.now + 2000000000) } ∧
      (s.fs.au.holder = some i → t.fs = { s.fs with relay := false } ∧ (s.fs.relay = true → (t.plane i).rdF Reg.FAULT_EVT 11 11 = 1))) ∧
    (∃ t, exec (.relayTestEnd i) s = .next t ∧ (t.plane i).start = { p.start with relayTest := p.start.relayTest.filter fun e => decide (p.tt s.now < e) } ∧
      ((t.plane i).start.relayTest = none → p.healthy → p.rd Reg.FAULT_FIELD_FLT = 0 → p.rd Reg.FAULT_WARN = 0 → s.fs.au.holder = some i →
        s.fs.stopped = false → s.fs.power.shed = false → t.fs = { s.fs with relay := true }))
end

