-- ==== Sys2Proof/Laws/State.lean ====
section
/-!
SUPPORT. One lemma per field per update of the state records: each says, by definition, what an update of one part leaves in another.
-/
namespace Sys2Proof.Machine

/-! ### Planes of the module -/

@[simp] theorem State.plane_a (s : State) : s.plane .a = s.a := rfl
@[simp] theorem State.setPlane_a_a (s : State) (p : Plane) : (s.setPlane .a p).a = p := rfl
@[simp] theorem State.setPlane_a_b (s : State) (p : Plane) : (s.setPlane .a p).b = s.b := rfl
@[simp] theorem State.upd_a_a (s : State) (f : Plane → Plane) : (s.upd .a f).a = f s.a := rfl
@[simp] theorem State.upd_a_b (s : State) (f : Plane → Plane) : (s.upd .a f).b = s.b := rfl
@[simp] theorem PlaneId.other_a : PlaneId.other .a = .b := rfl
@[simp] theorem State.plane_b (s : State) : s.plane .b = s.b := rfl
@[simp] theorem State.setPlane_b_b (s : State) (p : Plane) : (s.setPlane .b p).b = p := rfl
@[simp] theorem State.setPlane_b_a (s : State) (p : Plane) : (s.setPlane .b p).a = s.a := rfl
@[simp] theorem State.upd_b_b (s : State) (f : Plane → Plane) : (s.upd .b f).b = f s.b := rfl
@[simp] theorem State.upd_b_a (s : State) (f : Plane → Plane) : (s.upd .b f).a = s.a := rfl
@[simp] theorem PlaneId.other_b : PlaneId.other .b = .a := rfl
@[simp] theorem State.setPlane_now (s : State) (i : PlaneId) (p : Plane) : (s.setPlane i p).now = s.now := by cases i <;> rfl
@[simp] theorem State.upd_now (s : State) (i : PlaneId) (f : Plane → Plane) : (s.upd i f).now = s.now := by cases i <;> rfl
@[simp] theorem State.updBoth_now (s : State) (f : Plane → Plane) : (s.updBoth f).now = s.now := by
  unfold State.updBoth; dsimp only; split <;> split <;> rfl
@[simp] theorem State.setPlane_fresh (s : State) (i : PlaneId) (p : Plane) : (s.setPlane i p).fresh = s.fresh := by cases i <;> rfl
@[simp] theorem State.upd_fresh (s : State) (i : PlaneId) (f : Plane → Plane) : (s.upd i f).fresh = s.fresh := by cases i <;> rfl
@[simp] theorem State.updBoth_fresh (s : State) (f : Plane → Plane) : (s.updBoth f).fresh = s.fresh := by
  unfold State.updBoth; dsimp only; split <;> split <;> rfl
@[simp] theorem State.setPlane_pending (s : State) (i : PlaneId) (p : Plane) : (s.setPlane i p).pending = s.pending := by cases i <;> rfl
@[simp] theorem State.upd_pending (s : State) (i : PlaneId) (f : Plane → Plane) : (s.upd i f).pending = s.pending := by cases i <;> rfl
@[simp] theorem State.updBoth_pending (s : State) (f : Plane → Plane) : (s.updBoth f).pending = s.pending := by
  unfold State.updBoth; dsimp only; split <;> split <;> rfl
@[simp] theorem State.setPlane_fs (s : State) (i : PlaneId) (p : Plane) : (s.setPlane i p).fs = s.fs := by cases i <;> rfl
@[simp] theorem State.upd_fs (s : State) (i : PlaneId) (f : Plane → Plane) : (s.upd i f).fs = s.fs := by cases i <;> rfl
@[simp] theorem State.updBoth_fs (s : State) (f : Plane → Plane) : (s.updBoth f).fs = s.fs := by
  unfold State.updBoth; dsimp only; split <;> split <;> rfl
@[simp] theorem State.setPlane_plane (s : State) (i : PlaneId) (p : Plane) : (s.setPlane i p).plane i = p := by cases i <;> rfl
@[simp] theorem State.setPlane_other (s : State) (i : PlaneId) (p : Plane) : (s.setPlane i p).plane i.other = s.plane i.other := by
  cases i <;> rfl
@[simp] theorem State.upd_plane (s : State) (i : PlaneId) (f : Plane → Plane) : (s.upd i f).plane i = f (s.plane i) := by cases i <;> rfl
@[simp] theorem State.upd_other (s : State) (i : PlaneId) (f : Plane → Plane) : (s.upd i f).plane i.other = s.plane i.other := by
  cases i <;> rfl
@[simp] theorem State.upd_other_plane (s : State) (i : PlaneId) (f : Plane → Plane) : (s.upd i.other f).plane i = s.plane i := by
  cases i <;> rfl
@[simp] theorem PlaneId.other_other (i : PlaneId) : i.other.other = i := by cases i <;> rfl
theorem State.updBoth_a (s : State) (f : Plane → Plane) : (s.updBoth f).a = if s.a.running then f s.a else s.a := by
  unfold State.updBoth; dsimp only; split <;> split <;> rfl
theorem State.updBoth_b (s : State) (f : Plane → Plane) : (s.updBoth f).b = if s.b.running then f s.b else s.b := by
  unfold State.updBoth; dsimp only
  by_cases ha : s.a.running <;> by_cases hb : s.b.running <;> simp [ha, hb]
theorem State.updBoth_plane (s : State) (f : Plane → Plane) (i : PlaneId) :
    (s.updBoth f).plane i = if (s.plane i).running then f (s.plane i) else s.plane i := by
  cases i
  · exact State.updBoth_a s f
  · exact State.updBoth_b s f

/-! ### The field side -/

@[simp] theorem State.field_now (s : State) (f : FieldSide → FieldSide) : (s.field f).now = s.now := rfl
@[simp] theorem State.later_now (s : State) (t : Nat) (c : Instr) : (s.later t c).now = s.now := rfl
@[simp] theorem State.field_fresh (s : State) (f : FieldSide → FieldSide) : (s.field f).fresh = s.fresh := rfl
@[simp] theorem State.later_fresh (s : State) (t : Nat) (c : Instr) : (s.later t c).fresh = s.fresh := rfl
@[simp] theorem State.field_pending (s : State) (f : FieldSide → FieldSide) : (s.field f).pending = s.pending := rfl
@[simp] theorem State.later_pending (s : State) (t : Nat) (c : Instr) : (s.later t c).pending = s.pending := rfl
@[simp] theorem State.field_a (s : State) (f : FieldSide → FieldSide) : (s.field f).a = s.a := rfl
@[simp] theorem State.later_a (s : State) (t : Nat) (c : Instr) : (s.later t c).a = s.a := rfl
@[simp] theorem State.field_b (s : State) (f : FieldSide → FieldSide) : (s.field f).b = s.b := rfl
@[simp] theorem State.later_b (s : State) (t : Nat) (c : Instr) : (s.later t c).b = s.b := rfl
@[simp] theorem State.field_plane (s : State) (f : FieldSide → FieldSide) (i : PlaneId) : (s.field f).plane i = s.plane i := by
  cases i <;> rfl
@[simp] theorem State.later_plane (s : State) (t : Nat) (c : Instr) (i : PlaneId) : (s.later t c).plane i = s.plane i := by cases i <;> rfl
@[simp] theorem State.field_fs (s : State) (f : FieldSide → FieldSide) : (s.field f).fs = f s.fs := rfl
@[simp] theorem State.later_fs_meas (s : State) (t : Nat) (c : Instr) : (s.later t c).fs.meas = s.fs.meas := rfl
@[simp] theorem State.later_fs_per (s : State) (t : Nat) (c : Instr) : (s.later t c).fs.per = s.fs.per := rfl
@[simp] theorem State.later_fs_lq (s : State) (t : Nat) (c : Instr) : (s.later t c).fs.lq = s.fs.lq := rfl
@[simp] theorem State.later_fs_lseqRx (s : State) (t : Nat) (c : Instr) : (s.later t c).fs.lseqRx = s.fs.lseqRx := rfl
@[simp] theorem State.later_fs_lseqTx (s : State) (t : Nat) (c : Instr) : (s.later t c).fs.lseqTx = s.fs.lseqTx := rfl
@[simp] theorem State.later_fs_out (s : State) (t : Nat) (c : Instr) : (s.later t c).fs.out = s.fs.out := rfl
@[simp] theorem State.later_fs_made (s : State) (t : Nat) (c : Instr) : (s.later t c).fs.made = s.fs.made := rfl
@[simp] theorem State.later_fs_ends (s : State) (t : Nat) (c : Instr) : (s.later t c).fs.ends = s.fs.ends := rfl
@[simp] theorem State.later_fs_lostPorts (s : State) (t : Nat) (c : Instr) : (s.later t c).fs.lostPorts = s.fs.lostPorts := rfl
@[simp] theorem State.later_fs_ports (s : State) (t : Nat) (c : Instr) : (s.later t c).fs.ports = s.fs.ports := rfl
@[simp] theorem State.later_fs_power (s : State) (t : Nat) (c : Instr) : (s.later t c).fs.power = s.fs.power := rfl
@[simp] theorem State.later_fs_au (s : State) (t : Nat) (c : Instr) : (s.later t c).fs.au = s.fs.au := rfl
@[simp] theorem State.later_fs_pulses (s : State) (t : Nat) (c : Instr) : (s.later t c).fs.pulses = s.fs.pulses := rfl
@[simp] theorem State.later_fs_waking (s : State) (t : Nat) (c : Instr) : (s.later t c).fs.waking = s.fs.waking := rfl
@[simp] theorem State.later_fs_can (s : State) (t : Nat) (c : Instr) : (s.later t c).fs.can = s.fs.can := rfl
@[simp] theorem State.later_fs_supplies (s : State) (t : Nat) (c : Instr) : (s.later t c).fs.supplies = s.fs.supplies := rfl
@[simp] theorem State.later_fs_canFlt (s : State) (t : Nat) (c : Instr) : (s.later t c).fs.canFlt = s.fs.canFlt := rfl
@[simp] theorem State.later_fs_upl (s : State) (t : Nat) (c : Instr) : (s.later t c).fs.upl = s.fs.upl := rfl
@[simp] theorem State.later_fs_phy (s : State) (t : Nat) (c : Instr) : (s.later t c).fs.phy = s.fs.phy := rfl
@[simp] theorem State.later_fs_fab (s : State) (t : Nat) (c : Instr) : (s.later t c).fs.fab = s.fs.fab := rfl
@[simp] theorem State.later_fs_pwron (s : State) (t : Nat) (c : Instr) : (s.later t c).fs.pwron = s.fs.pwron := rfl
@[simp] theorem State.later_fs_relay (s : State) (t : Nat) (c : Instr) : (s.later t c).fs.relay = s.fs.relay := rfl
@[simp] theorem State.later_fs_stopped (s : State) (t : Nat) (c : Instr) : (s.later t c).fs.stopped = s.fs.stopped := rfl
@[simp] theorem State.later_fs_restart (s : State) (t : Nat) (c : Instr) : (s.later t c).fs.restart = s.fs.restart := rfl

/-! ### Registers -/

@[simp] theorem Plane.wr_id (p : Plane) (a : Nat) (w : Word) : (p.wr a w).id = p.id := rfl
@[simp] theorem Plane.wr_phase (p : Plane) (a : Nat) (w : Word) : (p.wr a w).phase = p.phase := rfl
@[simp] theorem Plane.wr_applied (p : Plane) (a : Nat) (w : Word) : (p.wr a w).applied = p.applied := rfl
@[simp] theorem Plane.wr_cfgQ (p : Plane) (a : Nat) (w : Word) : (p.wr a w).cfgQ = p.cfgQ := rfl
@[simp] theorem Plane.wr_grps (p : Plane) (a : Nat) (w : Word) : (p.wr a w).grps = p.grps := rfl
@[simp] theorem Plane.wr_nextGrp (p : Plane) (a : Nat) (w : Word) : (p.wr a w).nextGrp = p.nextGrp := rfl
@[simp] theorem Plane.wr_paths (p : Plane) (a : Nat) (w : Word) : (p.wr a w).paths = p.paths := rfl
@[simp] theorem Plane.wr_sess (p : Plane) (a : Nat) (w : Word) : (p.wr a w).sess = p.sess := rfl
@[simp] theorem Plane.wr_alias_ (p : Plane) (a : Nat) (w : Word) : (p.wr a w).alias_ = p.alias_ := rfl
@[simp] theorem Plane.wr_dataPath (p : Plane) (a : Nat) (w : Word) : (p.wr a w).dataPath = p.dataPath := rfl
@[simp] theorem Plane.wr_mpe (p : Plane) (a : Nat) (w : Word) : (p.wr a w).mpe = p.mpe := rfl
@[simp] theorem Plane.wr_weir (p : Plane) (a : Nat) (w : Word) : (p.wr a w).weir = p.weir := rfl
@[simp] theorem Plane.wr_points (p : Plane) (a : Nat) (w : Word) : (p.wr a w).points = p.points := rfl
@[simp] theorem Plane.wr_heads (p : Plane) (a : Nat) (w : Word) : (p.wr a w).heads = p.heads := rfl
@[simp] theorem Plane.wr_meter (p : Plane) (a : Nat) (w : Word) : (p.wr a w).meter = p.meter := rfl
@[simp] theorem Plane.wr_acct (p : Plane) (a : Nat) (w : Word) : (p.wr a w).acct = p.acct := rfl
@[simp] theorem Plane.wr_pulses (p : Plane) (a : Nat) (w : Word) : (p.wr a w).pulses = p.pulses := rfl
@[simp] theorem Plane.wr_red (p : Plane) (a : Nat) (w : Word) : (p.wr a w).red = p.red := rfl
@[simp] theorem Plane.wr_tarn (p : Plane) (a : Nat) (w : Word) : (p.wr a w).tarn = p.tarn := rfl
@[simp] theorem Plane.wr_evr (p : Plane) (a : Nat) (w : Word) : (p.wr a w).evr = p.evr := rfl
@[simp] theorem Plane.wr_canRx (p : Plane) (a : Nat) (w : Word) : (p.wr a w).canRx = p.canRx := rfl
@[simp] theorem Plane.wr_scan (p : Plane) (a : Nat) (w : Word) : (p.wr a w).scan = p.scan := rfl
@[simp] theorem Plane.wr_loops (p : Plane) (a : Nat) (w : Word) : (p.wr a w).loops = p.loops := rfl
@[simp] theorem Plane.wr_sections (p : Plane) (a : Nat) (w : Word) : (p.wr a w).sections = p.sections := rfl
@[simp] theorem Plane.wr_keys (p : Plane) (a : Nat) (w : Word) : (p.wr a w).keys = p.keys := rfl
@[simp] theorem Plane.wr_crypto (p : Plane) (a : Nat) (w : Word) : (p.wr a w).crypto = p.crypto := rfl
@[simp] theorem Plane.wr_boot (p : Plane) (a : Nat) (w : Word) : (p.wr a w).boot = p.boot := rfl
@[simp] theorem Plane.wr_rtc (p : Plane) (a : Nat) (w : Word) : (p.wr a w).rtc = p.rtc := rfl
@[simp] theorem Plane.wr_mem (p : Plane) (a : Nat) (w : Word) : (p.wr a w).mem = p.mem := rfl
@[simp] theorem Plane.wr_bkg (p : Plane) (a : Nat) (w : Word) : (p.wr a w).bkg = p.bkg := rfl
@[simp] theorem Plane.wr_start (p : Plane) (a : Nat) (w : Word) : (p.wr a w).start = p.start := rfl
@[simp] theorem Plane.wr_cfg (p : Plane) (a : Nat) (w : Word) (k : Nat) : (p.wr a w).cfg k = p.cfg k := rfl
@[simp] theorem Plane.wr_running (p : Plane) (a : Nat) (w : Word) : (p.wr a w).running = p.running := rfl
@[simp] theorem Plane.wr_isActive (p : Plane) (a : Nat) (w : Word) : (p.wr a w).isActive = p.isActive := rfl
@[simp] theorem Plane.wrF_id (p : Plane) (a hi lo v : Nat) : (p.wrF a hi lo v).id = p.id := rfl
@[simp] theorem Plane.wrF_phase (p : Plane) (a hi lo v : Nat) : (p.wrF a hi lo v).phase = p.phase := rfl
@[simp] theorem Plane.wrF_applied (p : Plane) (a hi lo v : Nat) : (p.wrF a hi lo v).applied = p.applied := rfl
@[simp] theorem Plane.wrF_cfgQ (p : Plane) (a hi lo v : Nat) : (p.wrF a hi lo v).cfgQ = p.cfgQ := rfl
@[simp] theorem Plane.wrF_grps (p : Plane) (a hi lo v : Nat) : (p.wrF a hi lo v).grps = p.grps := rfl
@[simp] theorem Plane.wrF_nextGrp (p : Plane) (a hi lo v : Nat) : (p.wrF a hi lo v).nextGrp = p.nextGrp := rfl
@[simp] theorem Plane.wrF_paths (p : Plane) (a hi lo v : Nat) : (p.wrF a hi lo v).paths = p.paths := rfl
@[simp] theorem Plane.wrF_sess (p : Plane) (a hi lo v : Nat) : (p.wrF a hi lo v).sess = p.sess := rfl
@[simp] theorem Plane.wrF_alias_ (p : Plane) (a hi lo v : Nat) : (p.wrF a hi lo v).alias_ = p.alias_ := rfl
@[simp] theorem Plane.wrF_dataPath (p : Plane) (a hi lo v : Nat) : (p.wrF a hi lo v).dataPath = p.dataPath := rfl
@[simp] theorem Plane.wrF_mpe (p : Plane) (a hi lo v : Nat) : (p.wrF a hi lo v).mpe = p.mpe := rfl
@[simp] theorem Plane.wrF_weir (p : Plane) (a hi lo v : Nat) : (p.wrF a hi lo v).weir = p.weir := rfl
@[simp] theorem Plane.wrF_points (p : Plane) (a hi lo v : Nat) : (p.wrF a hi lo v).points = p.points := rfl
@[simp] theorem Plane.wrF_heads (p : Plane) (a hi lo v : Nat) : (p.wrF a hi lo v).heads = p.heads := rfl
@[simp] theorem Plane.wrF_meter (p : Plane) (a hi lo v : Nat) : (p.wrF a hi lo v).meter = p.meter := rfl
@[simp] theorem Plane.wrF_acct (p : Plane) (a hi lo v : Nat) : (p.wrF a hi lo v).acct = p.acct := rfl
@[simp] theorem Plane.wrF_pulses (p : Plane) (a hi lo v : Nat) : (p.wrF a hi lo v).pulses = p.pulses := rfl
@[simp] theorem Plane.wrF_red (p : Plane) (a hi lo v : Nat) : (p.wrF a hi lo v).red = p.red := rfl
@[simp] theorem Plane.wrF_tarn (p : Plane) (a hi lo v : Nat) : (p.wrF a hi lo v).tarn = p.tarn := rfl
@[simp] theorem Plane.wrF_evr (p : Plane) (a hi lo v : Nat) : (p.wrF a hi lo v).evr = p.evr := rfl
@[simp] theorem Plane.wrF_canRx (p : Plane) (a hi lo v : Nat) : (p.wrF a hi lo v).canRx = p.canRx := rfl
@[simp] theorem Plane.wrF_scan (p : Plane) (a hi lo v : Nat) : (p.wrF a hi lo v).scan = p.scan := rfl
@[simp] theorem Plane.wrF_loops (p : Plane) (a hi lo v : Nat) : (p.wrF a hi lo v).loops = p.loops := rfl
@[simp] theorem Plane.wrF_sections (p : Plane) (a hi lo v : Nat) : (p.wrF a hi lo v).sections = p.sections := rfl
@[simp] theorem Plane.wrF_keys (p : Plane) (a hi lo v : Nat) : (p.wrF a hi lo v).keys = p.keys := rfl
@[simp] theorem Plane.wrF_crypto (p : Plane) (a hi lo v : Nat) : (p.wrF a hi lo v).crypto = p.crypto := rfl
@[simp] theorem Plane.wrF_boot (p : Plane) (a hi lo v : Nat) : (p.wrF a hi lo v).boot = p.boot := rfl
@[simp] theorem Plane.wrF_rtc (p : Plane) (a hi lo v : Nat) : (p.wrF a hi lo v).rtc = p.rtc := rfl
@[simp] theorem Plane.wrF_mem (p : Plane) (a hi lo v : Nat) : (p.wrF a hi lo v).mem = p.mem := rfl
@[simp] theorem Plane.wrF_bkg (p : Plane) (a hi lo v : Nat) : (p.wrF a hi lo v).bkg = p.bkg := rfl
@[simp] theorem Plane.wrF_start (p : Plane) (a hi lo v : Nat) : (p.wrF a hi lo v).start = p.start := rfl
@[simp] theorem Plane.wrF_cfg (p : Plane) (a hi lo v : Nat) (k : Nat) : (p.wrF a hi lo v).cfg k = p.cfg k := rfl
@[simp] theorem Plane.wrF_running (p : Plane) (a hi lo v : Nat) : (p.wrF a hi lo v).running = p.running := rfl
@[simp] theorem Plane.wrF_isActive (p : Plane) (a hi lo v : Nat) : (p.wrF a hi lo v).isActive = p.isActive := rfl
@[simp] theorem Plane.bump_id (p : Plane) (a hi lo : Nat) : (p.bump a hi lo).id = p.id := rfl
@[simp] theorem Plane.bump_phase (p : Plane) (a hi lo : Nat) : (p.bump a hi lo).phase = p.phase := rfl
@[simp] theorem Plane.bump_applied (p : Plane) (a hi lo : Nat) : (p.bump a hi lo).applied = p.applied := rfl
@[simp] theorem Plane.bump_cfgQ (p : Plane) (a hi lo : Nat) : (p.bump a hi lo).cfgQ = p.cfgQ := rfl
@[simp] theorem Plane.bump_grps (p : Plane) (a hi lo : Nat) : (p.bump a hi lo).grps = p.grps := rfl
@[simp] theorem Plane.bump_nextGrp (p : Plane) (a hi lo : Nat) : (p.bump a hi lo).nextGrp = p.nextGrp := rfl
@[simp] theorem Plane.bump_paths (p : Plane) (a hi lo : Nat) : (p.bump a hi lo).paths = p.paths := rfl
@[simp] theorem Plane.bump_sess (p : Plane) (a hi lo : Nat) : (p.bump a hi lo).sess = p.sess := rfl
@[simp] theorem Plane.bump_alias_ (p : Plane) (a hi lo : Nat) : (p.bump a hi lo).alias_ = p.alias_ := rfl
@[simp] theorem Plane.bump_dataPath (p : Plane) (a hi lo : Nat) : (p.bump a hi lo).dataPath = p.dataPath := rfl
@[simp] theorem Plane.bump_mpe (p : Plane) (a hi lo : Nat) : (p.bump a hi lo).mpe = p.mpe := rfl
@[simp] theorem Plane.bump_weir (p : Plane) (a hi lo : Nat) : (p.bump a hi lo).weir = p.weir := rfl
@[simp] theorem Plane.bump_points (p : Plane) (a hi lo : Nat) : (p.bump a hi lo).points = p.points := rfl
@[simp] theorem Plane.bump_heads (p : Plane) (a hi lo : Nat) : (p.bump a hi lo).heads = p.heads := rfl
@[simp] theorem Plane.bump_meter (p : Plane) (a hi lo : Nat) : (p.bump a hi lo).meter = p.meter := rfl
@[simp] theorem Plane.bump_acct (p : Plane) (a hi lo : Nat) : (p.bump a hi lo).acct = p.acct := rfl
@[simp] theorem Plane.bump_pulses (p : Plane) (a hi lo : Nat) : (p.bump a hi lo).pulses = p.pulses := rfl
@[simp] theorem Plane.bump_red (p : Plane) (a hi lo : Nat) : (p.bump a hi lo).red = p.red := rfl
@[simp] theorem Plane.bump_tarn (p : Plane) (a hi lo : Nat) : (p.bump a hi lo).tarn = p.tarn := rfl
@[simp] theorem Plane.bump_evr (p : Plane) (a hi lo : Nat) : (p.bump a hi lo).evr = p.evr := rfl
@[simp] theorem Plane.bump_canRx (p : Plane) (a hi lo : Nat) : (p.bump a hi lo).canRx = p.canRx := rfl
@[simp] theorem Plane.bump_scan (p : Plane) (a hi lo : Nat) : (p.bump a hi lo).scan = p.scan := rfl
@[simp] theorem Plane.bump_loops (p : Plane) (a hi lo : Nat) : (p.bump a hi lo).loops = p.loops := rfl
@[simp] theorem Plane.bump_sections (p : Plane) (a hi lo : Nat) : (p.bump a hi lo).sections = p.sections := rfl
@[simp] theorem Plane.bump_keys (p : Plane) (a hi lo : Nat) : (p.bump a hi lo).keys = p.keys := rfl
@[simp] theorem Plane.bump_crypto (p : Plane) (a hi lo : Nat) : (p.bump a hi lo).crypto = p.crypto := rfl
@[simp] theorem Plane.bump_boot (p : Plane) (a hi lo : Nat) : (p.bump a hi lo).boot = p.boot := rfl
@[simp] theorem Plane.bump_rtc (p : Plane) (a hi lo : Nat) : (p.bump a hi lo).rtc = p.rtc := rfl
@[simp] theorem Plane.bump_mem (p : Plane) (a hi lo : Nat) : (p.bump a hi lo).mem = p.mem := rfl
@[simp] theorem Plane.bump_bkg (p : Plane) (a hi lo : Nat) : (p.bump a hi lo).bkg = p.bkg := rfl
@[simp] theorem Plane.bump_start (p : Plane) (a hi lo : Nat) : (p.bump a hi lo).start = p.start := rfl
@[simp] theorem Plane.bump_cfg (p : Plane) (a hi lo : Nat) (k : Nat) : (p.bump a hi lo).cfg k = p.cfg k := rfl
@[simp] theorem Plane.bump_running (p : Plane) (a hi lo : Nat) : (p.bump a hi lo).running = p.running := rfl
@[simp] theorem Plane.bump_isActive (p : Plane) (a hi lo : Nat) : (p.bump a hi lo).isActive = p.isActive := rfl
@[simp] theorem Plane.evt_id (p : Plane) (a n : Nat) : (p.evt a n).id = p.id := rfl
@[simp] theorem Plane.evt_phase (p : Plane) (a n : Nat) : (p.evt a n).phase = p.phase := rfl
@[simp] theorem Plane.evt_applied (p : Plane) (a n : Nat) : (p.evt a n).applied = p.applied := rfl
@[simp] theorem Plane.evt_cfgQ (p : Plane) (a n : Nat) : (p.evt a n).cfgQ = p.cfgQ := rfl
@[simp] theorem Plane.evt_grps (p : Plane) (a n : Nat) : (p.evt a n).grps = p.grps := rfl
@[simp] theorem Plane.evt_nextGrp (p : Plane) (a n : Nat) : (p.evt a n).nextGrp = p.nextGrp := rfl
@[simp] theorem Plane.evt_paths (p : Plane) (a n : Nat) : (p.evt a n).paths = p.paths := rfl
@[simp] theorem Plane.evt_sess (p : Plane) (a n : Nat) : (p.evt a n).sess = p.sess := rfl
@[simp] theorem Plane.evt_alias_ (p : Plane) (a n : Nat) : (p.evt a n).alias_ = p.alias_ := rfl
@[simp] theorem Plane.evt_dataPath (p : Plane) (a n : Nat) : (p.evt a n).dataPath = p.dataPath := rfl
@[simp] theorem Plane.evt_mpe (p : Plane) (a n : Nat) : (p.evt a n).mpe = p.mpe := rfl
@[simp] theorem Plane.evt_weir (p : Plane) (a n : Nat) : (p.evt a n).weir = p.weir := rfl
@[simp] theorem Plane.evt_points (p : Plane) (a n : Nat) : (p.evt a n).points = p.points := rfl
@[simp] theorem Plane.evt_heads (p : Plane) (a n : Nat) : (p.evt a n).heads = p.heads := rfl
@[simp] theorem Plane.evt_meter (p : Plane) (a n : Nat) : (p.evt a n).meter = p.meter := rfl
@[simp] theorem Plane.evt_acct (p : Plane) (a n : Nat) : (p.evt a n).acct = p.acct := rfl
@[simp] theorem Plane.evt_pulses (p : Plane) (a n : Nat) : (p.evt a n).pulses = p.pulses := rfl
@[simp] theorem Plane.evt_red (p : Plane) (a n : Nat) : (p.evt a n).red = p.red := rfl
@[simp] theorem Plane.evt_tarn (p : Plane) (a n : Nat) : (p.evt a n).tarn = p.tarn := rfl
@[simp] theorem Plane.evt_evr (p : Plane) (a n : Nat) : (p.evt a n).evr = p.evr := rfl
@[simp] theorem Plane.evt_canRx (p : Plane) (a n : Nat) : (p.evt a n).canRx = p.canRx := rfl
@[simp] theorem Plane.evt_scan (p : Plane) (a n : Nat) : (p.evt a n).scan = p.scan := rfl
@[simp] theorem Plane.evt_loops (p : Plane) (a n : Nat) : (p.evt a n).loops = p.loops := rfl
@[simp] theorem Plane.evt_sections (p : Plane) (a n : Nat) : (p.evt a n).sections = p.sections := rfl
@[simp] theorem Plane.evt_keys (p : Plane) (a n : Nat) : (p.evt a n).keys = p.keys := rfl
@[simp] theorem Plane.evt_crypto (p : Plane) (a n : Nat) : (p.evt a n).crypto = p.crypto := rfl
@[simp] theorem Plane.evt_boot (p : Plane) (a n : Nat) : (p.evt a n).boot = p.boot := rfl
@[simp] theorem Plane.evt_rtc (p : Plane) (a n : Nat) : (p.evt a n).rtc = p.rtc := rfl
@[simp] theorem Plane.evt_mem (p : Plane) (a n : Nat) : (p.evt a n).mem = p.mem := rfl
@[simp] theorem Plane.evt_bkg (p : Plane) (a n : Nat) : (p.evt a n).bkg = p.bkg := rfl
@[simp] theorem Plane.evt_start (p : Plane) (a n : Nat) : (p.evt a n).start = p.start := rfl
@[simp] theorem Plane.evt_cfg (p : Plane) (a n : Nat) (k : Nat) : (p.evt a n).cfg k = p.cfg k := rfl
@[simp] theorem Plane.evt_running (p : Plane) (a n : Nat) : (p.evt a n).running = p.running := rfl
@[simp] theorem Plane.evt_isActive (p : Plane) (a n : Nat) : (p.evt a n).isActive = p.isActive := rfl
@[simp] theorem Plane.err_id (p : Plane) (g : Nat) : (p.err g).id = p.id := rfl
@[simp] theorem Plane.err_phase (p : Plane) (g : Nat) : (p.err g).phase = p.phase := rfl
@[simp] theorem Plane.err_applied (p : Plane) (g : Nat) : (p.err g).applied = p.applied := rfl
@[simp] theorem Plane.err_cfgQ (p : Plane) (g : Nat) : (p.err g).cfgQ = p.cfgQ := rfl
@[simp] theorem Plane.err_grps (p : Plane) (g : Nat) : (p.err g).grps = p.grps := rfl
@[simp] theorem Plane.err_nextGrp (p : Plane) (g : Nat) : (p.err g).nextGrp = p.nextGrp := rfl
@[simp] theorem Plane.err_paths (p : Plane) (g : Nat) : (p.err g).paths = p.paths := rfl
@[simp] theorem Plane.err_sess (p : Plane) (g : Nat) : (p.err g).sess = p.sess := rfl
@[simp] theorem Plane.err_alias_ (p : Plane) (g : Nat) : (p.err g).alias_ = p.alias_ := rfl
@[simp] theorem Plane.err_dataPath (p : Plane) (g : Nat) : (p.err g).dataPath = p.dataPath := rfl
@[simp] theorem Plane.err_mpe (p : Plane) (g : Nat) : (p.err g).mpe = p.mpe := rfl
@[simp] theorem Plane.err_weir (p : Plane) (g : Nat) : (p.err g).weir = p.weir := rfl
@[simp] theorem Plane.err_points (p : Plane) (g : Nat) : (p.err g).points = p.points := rfl
@[simp] theorem Plane.err_heads (p : Plane) (g : Nat) : (p.err g).heads = p.heads := rfl
@[simp] theorem Plane.err_meter (p : Plane) (g : Nat) : (p.err g).meter = p.meter := rfl
@[simp] theorem Plane.err_acct (p : Plane) (g : Nat) : (p.err g).acct = p.acct := rfl
@[simp] theorem Plane.err_pulses (p : Plane) (g : Nat) : (p.err g).pulses = p.pulses := rfl
@[simp] theorem Plane.err_red (p : Plane) (g : Nat) : (p.err g).red = p.red := rfl
@[simp] theorem Plane.err_tarn (p : Plane) (g : Nat) : (p.err g).tarn = p.tarn := rfl
@[simp] theorem Plane.err_evr (p : Plane) (g : Nat) : (p.err g).evr = p.evr := rfl
@[simp] theorem Plane.err_canRx (p : Plane) (g : Nat) : (p.err g).canRx = p.canRx := rfl
@[simp] theorem Plane.err_scan (p : Plane) (g : Nat) : (p.err g).scan = p.scan := rfl
@[simp] theorem Plane.err_loops (p : Plane) (g : Nat) : (p.err g).loops = p.loops := rfl
@[simp] theorem Plane.err_sections (p : Plane) (g : Nat) : (p.err g).sections = p.sections := rfl
@[simp] theorem Plane.err_keys (p : Plane) (g : Nat) : (p.err g).keys = p.keys := rfl
@[simp] theorem Plane.err_crypto (p : Plane) (g : Nat) : (p.err g).crypto = p.crypto := rfl
@[simp] theorem Plane.err_boot (p : Plane) (g : Nat) : (p.err g).boot = p.boot := rfl
@[simp] theorem Plane.err_rtc (p : Plane) (g : Nat) : (p.err g).rtc = p.rtc := rfl
@[simp] theorem Plane.err_mem (p : Plane) (g : Nat) : (p.err g).mem = p.mem := rfl
@[simp] theorem Plane.err_bkg (p : Plane) (g : Nat) : (p.err g).bkg = p.bkg := rfl
@[simp] theorem Plane.err_start (p : Plane) (g : Nat) : (p.err g).start = p.start := rfl
@[simp] theorem Plane.err_cfg (p : Plane) (g : Nat) (k : Nat) : (p.err g).cfg k = p.cfg k := rfl
@[simp] theorem Plane.err_running (p : Plane) (g : Nat) : (p.err g).running = p.running := rfl
@[simp] theorem Plane.err_isActive (p : Plane) (g : Nat) : (p.err g).isActive = p.isActive := rfl
@[simp] theorem Plane.wr64_id (p : Plane) (a v : Nat) : (p.wr64 a v).id = p.id := rfl
@[simp] theorem Plane.wr64_phase (p : Plane) (a v : Nat) : (p.wr64 a v).phase = p.phase := rfl
@[simp] theorem Plane.wr64_applied (p : Plane) (a v : Nat) : (p.wr64 a v).applied = p.applied := rfl
@[simp] theorem Plane.wr64_cfgQ (p : Plane) (a v : Nat) : (p.wr64 a v).cfgQ = p.cfgQ := rfl
@[simp] theorem Plane.wr64_grps (p : Plane) (a v : Nat) : (p.wr64 a v).grps = p.grps := rfl
@[simp] theorem Plane.wr64_nextGrp (p : Plane) (a v : Nat) : (p.wr64 a v).nextGrp = p.nextGrp := rfl
@[simp] theorem Plane.wr64_paths (p : Plane) (a v : Nat) : (p.wr64 a v).paths = p.paths := rfl
@[simp] theorem Plane.wr64_sess (p : Plane) (a v : Nat) : (p.wr64 a v).sess = p.sess := rfl
@[simp] theorem Plane.wr64_alias_ (p : Plane) (a v : Nat) : (p.wr64 a v).alias_ = p.alias_ := rfl
@[simp] theorem Plane.wr64_dataPath (p : Plane) (a v : Nat) : (p.wr64 a v).dataPath = p.dataPath := rfl
@[simp] theorem Plane.wr64_mpe (p : Plane) (a v : Nat) : (p.wr64 a v).mpe = p.mpe := rfl
@[simp] theorem Plane.wr64_weir (p : Plane) (a v : Nat) : (p.wr64 a v).weir = p.weir := rfl
@[simp] theorem Plane.wr64_points (p : Plane) (a v : Nat) : (p.wr64 a v).points = p.points := rfl
@[simp] theorem Plane.wr64_heads (p : Plane) (a v : Nat) : (p.wr64 a v).heads = p.heads := rfl
@[simp] theorem Plane.wr64_meter (p : Plane) (a v : Nat) : (p.wr64 a v).meter = p.meter := rfl
@[simp] theorem Plane.wr64_acct (p : Plane) (a v : Nat) : (p.wr64 a v).acct = p.acct := rfl
@[simp] theorem Plane.wr64_pulses (p : Plane) (a v : Nat) : (p.wr64 a v).pulses = p.pulses := rfl
@[simp] theorem Plane.wr64_red (p : Plane) (a v : Nat) : (p.wr64 a v).red = p.red := rfl
@[simp] theorem Plane.wr64_tarn (p : Plane) (a v : Nat) : (p.wr64 a v).tarn = p.tarn := rfl
@[simp] theorem Plane.wr64_evr (p : Plane) (a v : Nat) : (p.wr64 a v).evr = p.evr := rfl
@[simp] theorem Plane.wr64_canRx (p : Plane) (a v : Nat) : (p.wr64 a v).canRx = p.canRx := rfl
@[simp] theorem Plane.wr64_scan (p : Plane) (a v : Nat) : (p.wr64 a v).scan = p.scan := rfl
@[simp] theorem Plane.wr64_loops (p : Plane) (a v : Nat) : (p.wr64 a v).loops = p.loops := rfl
@[simp] theorem Plane.wr64_sections (p : Plane) (a v : Nat) : (p.wr64 a v).sections = p.sections := rfl
@[simp] theorem Plane.wr64_keys (p : Plane) (a v : Nat) : (p.wr64 a v).keys = p.keys := rfl
@[simp] theorem Plane.wr64_crypto (p : Plane) (a v : Nat) : (p.wr64 a v).crypto = p.crypto := rfl
@[simp] theorem Plane.wr64_boot (p : Plane) (a v : Nat) : (p.wr64 a v).boot = p.boot := rfl
@[simp] theorem Plane.wr64_rtc (p : Plane) (a v : Nat) : (p.wr64 a v).rtc = p.rtc := rfl
@[simp] theorem Plane.wr64_mem (p : Plane) (a v : Nat) : (p.wr64 a v).mem = p.mem := rfl
@[simp] theorem Plane.wr64_bkg (p : Plane) (a v : Nat) : (p.wr64 a v).bkg = p.bkg := rfl
@[simp] theorem Plane.wr64_start (p : Plane) (a v : Nat) : (p.wr64 a v).start = p.start := rfl
@[simp] theorem Plane.wr64_cfg (p : Plane) (a v : Nat) (k : Nat) : (p.wr64 a v).cfg k = p.cfg k := rfl
@[simp] theorem Plane.wr64_running (p : Plane) (a v : Nat) : (p.wr64 a v).running = p.running := rfl
@[simp] theorem Plane.wr64_isActive (p : Plane) (a v : Nat) : (p.wr64 a v).isActive = p.isActive := rfl

/-! ### Parts of a plane -/

@[simp] theorem Plane.updWeir_id (p : Plane) (f : WeirSt → WeirSt) : (p.updWeir f).id = p.id := rfl
@[simp] theorem Plane.updWeir_phase (p : Plane) (f : WeirSt → WeirSt) : (p.updWeir f).phase = p.phase := rfl
@[simp] theorem Plane.updWeir_applied (p : Plane) (f : WeirSt → WeirSt) : (p.updWeir f).applied = p.applied := rfl
@[simp] theorem Plane.updWeir_cfgQ (p : Plane) (f : WeirSt → WeirSt) : (p.updWeir f).cfgQ = p.cfgQ := rfl
@[simp] theorem Plane.updWeir_grps (p : Plane) (f : WeirSt → WeirSt) : (p.updWeir f).grps = p.grps := rfl
@[simp] theorem Plane.updWeir_nextGrp (p : Plane) (f : WeirSt → WeirSt) : (p.updWeir f).nextGrp = p.nextGrp := rfl
@[simp] theorem Plane.updWeir_paths (p : Plane) (f : WeirSt → WeirSt) : (p.updWeir f).paths = p.paths := rfl
@[simp] theorem Plane.updWeir_sess (p : Plane) (f : WeirSt → WeirSt) : (p.updWeir f).sess = p.sess := rfl
@[simp] theorem Plane.updWeir_alias_ (p : Plane) (f : WeirSt → WeirSt) : (p.updWeir f).alias_ = p.alias_ := rfl
@[simp] theorem Plane.updWeir_dataPath (p : Plane) (f : WeirSt → WeirSt) : (p.updWeir f).dataPath = p.dataPath := rfl
@[simp] theorem Plane.updWeir_mpe (p : Plane) (f : WeirSt → WeirSt) : (p.updWeir f).mpe = p.mpe := rfl
@[simp] theorem Plane.updWeir_weir (p : Plane) (f : WeirSt → WeirSt) : (p.updWeir f).weir = f p.weir := rfl
@[simp] theorem Plane.updWeir_points (p : Plane) (f : WeirSt → WeirSt) : (p.updWeir f).points = p.points := rfl
@[simp] theorem Plane.updWeir_heads (p : Plane) (f : WeirSt → WeirSt) : (p.updWeir f).heads = p.heads := rfl
@[simp] theorem Plane.updWeir_meter (p : Plane) (f : WeirSt → WeirSt) : (p.updWeir f).meter = p.meter := rfl
@[simp] theorem Plane.updWeir_acct (p : Plane) (f : WeirSt → WeirSt) : (p.updWeir f).acct = p.acct := rfl
@[simp] theorem Plane.updWeir_pulses (p : Plane) (f : WeirSt → WeirSt) : (p.updWeir f).pulses = p.pulses := rfl
@[simp] theorem Plane.updWeir_red (p : Plane) (f : WeirSt → WeirSt) : (p.updWeir f).red = p.red := rfl
@[simp] theorem Plane.updWeir_tarn (p : Plane) (f : WeirSt → WeirSt) : (p.updWeir f).tarn = p.tarn := rfl
@[simp] theorem Plane.updWeir_evr (p : Plane) (f : WeirSt → WeirSt) : (p.updWeir f).evr = p.evr := rfl
@[simp] theorem Plane.updWeir_canRx (p : Plane) (f : WeirSt → WeirSt) : (p.updWeir f).canRx = p.canRx := rfl
@[simp] theorem Plane.updWeir_scan (p : Plane) (f : WeirSt → WeirSt) : (p.updWeir f).scan = p.scan := rfl
@[simp] theorem Plane.updWeir_loops (p : Plane) (f : WeirSt → WeirSt) : (p.updWeir f).loops = p.loops := rfl
@[simp] theorem Plane.updWeir_sections (p : Plane) (f : WeirSt → WeirSt) : (p.updWeir f).sections = p.sections := rfl
@[simp] theorem Plane.updWeir_keys (p : Plane) (f : WeirSt → WeirSt) : (p.updWeir f).keys = p.keys := rfl
@[simp] theorem Plane.updWeir_crypto (p : Plane) (f : WeirSt → WeirSt) : (p.updWeir f).crypto = p.crypto := rfl
@[simp] theorem Plane.updWeir_boot (p : Plane) (f : WeirSt → WeirSt) : (p.updWeir f).boot = p.boot := rfl
@[simp] theorem Plane.updWeir_rtc (p : Plane) (f : WeirSt → WeirSt) : (p.updWeir f).rtc = p.rtc := rfl
@[simp] theorem Plane.updWeir_mem (p : Plane) (f : WeirSt → WeirSt) : (p.updWeir f).mem = p.mem := rfl
@[simp] theorem Plane.updWeir_bkg (p : Plane) (f : WeirSt → WeirSt) : (p.updWeir f).bkg = p.bkg := rfl
@[simp] theorem Plane.updWeir_start (p : Plane) (f : WeirSt → WeirSt) : (p.updWeir f).start = p.start := rfl
@[simp] theorem Plane.updWeir_regs (p : Plane) (f : WeirSt → WeirSt) : (p.updWeir f).regs = p.regs := rfl
@[simp] theorem Plane.updWeir_rd (p : Plane) (f : WeirSt → WeirSt) (k : Nat) : (p.updWeir f).rd k = p.rd k := rfl
@[simp] theorem Plane.updWeir_cfg (p : Plane) (f : WeirSt → WeirSt) (k : Nat) : (p.updWeir f).cfg k = p.cfg k := rfl
@[simp] theorem Plane.updMpe_id (p : Plane) (f : MpeSt → MpeSt) : (p.updMpe f).id = p.id := rfl
@[simp] theorem Plane.updMpe_phase (p : Plane) (f : MpeSt → MpeSt) : (p.updMpe f).phase = p.phase := rfl
@[simp] theorem Plane.updMpe_applied (p : Plane) (f : MpeSt → MpeSt) : (p.updMpe f).applied = p.applied := rfl
@[simp] theorem Plane.updMpe_cfgQ (p : Plane) (f : MpeSt → MpeSt) : (p.updMpe f).cfgQ = p.cfgQ := rfl
@[simp] theorem Plane.updMpe_grps (p : Plane) (f : MpeSt → MpeSt) : (p.updMpe f).grps = p.grps := rfl
@[simp] theorem Plane.updMpe_nextGrp (p : Plane) (f : MpeSt → MpeSt) : (p.updMpe f).nextGrp = p.nextGrp := rfl
@[simp] theorem Plane.updMpe_paths (p : Plane) (f : MpeSt → MpeSt) : (p.updMpe f).paths = p.paths := rfl
@[simp] theorem Plane.updMpe_sess (p : Plane) (f : MpeSt → MpeSt) : (p.updMpe f).sess = p.sess := rfl
@[simp] theorem Plane.updMpe_alias_ (p : Plane) (f : MpeSt → MpeSt) : (p.updMpe f).alias_ = p.alias_ := rfl
@[simp] theorem Plane.updMpe_dataPath (p : Plane) (f : MpeSt → MpeSt) : (p.updMpe f).dataPath = p.dataPath := rfl
@[simp] theorem Plane.updMpe_mpe (p : Plane) (f : MpeSt → MpeSt) : (p.updMpe f).mpe = f p.mpe := rfl
@[simp] theorem Plane.updMpe_weir (p : Plane) (f : MpeSt → MpeSt) : (p.updMpe f).weir = p.weir := rfl
@[simp] theorem Plane.updMpe_points (p : Plane) (f : MpeSt → MpeSt) : (p.updMpe f).points = p.points := rfl
@[simp] theorem Plane.updMpe_heads (p : Plane) (f : MpeSt → MpeSt) : (p.updMpe f).heads = p.heads := rfl
@[simp] theorem Plane.updMpe_meter (p : Plane) (f : MpeSt → MpeSt) : (p.updMpe f).meter = p.meter := rfl
@[simp] theorem Plane.updMpe_acct (p : Plane) (f : MpeSt → MpeSt) : (p.updMpe f).acct = p.acct := rfl
@[simp] theorem Plane.updMpe_pulses (p : Plane) (f : MpeSt → MpeSt) : (p.updMpe f).pulses = p.pulses := rfl
@[simp] theorem Plane.updMpe_red (p : Plane) (f : MpeSt → MpeSt) : (p.updMpe f).red = p.red := rfl
@[simp] theorem Plane.updMpe_tarn (p : Plane) (f : MpeSt → MpeSt) : (p.updMpe f).tarn = p.tarn := rfl
@[simp] theorem Plane.updMpe_evr (p : Plane) (f : MpeSt → MpeSt) : (p.updMpe f).evr = p.evr := rfl
@[simp] theorem Plane.updMpe_canRx (p : Plane) (f : MpeSt → MpeSt) : (p.updMpe f).canRx = p.canRx := rfl
@[simp] theorem Plane.updMpe_scan (p : Plane) (f : MpeSt → MpeSt) : (p.updMpe f).scan = p.scan := rfl
@[simp] theorem Plane.updMpe_loops (p : Plane) (f : MpeSt → MpeSt) : (p.updMpe f).loops = p.loops := rfl
@[simp] theorem Plane.updMpe_sections (p : Plane) (f : MpeSt → MpeSt) : (p.updMpe f).sections = p.sections := rfl
@[simp] theorem Plane.updMpe_keys (p : Plane) (f : MpeSt → MpeSt) : (p.updMpe f).keys = p.keys := rfl
@[simp] theorem Plane.updMpe_crypto (p : Plane) (f : MpeSt → MpeSt) : (p.updMpe f).crypto = p.crypto := rfl
@[simp] theorem Plane.updMpe_boot (p : Plane) (f : MpeSt → MpeSt) : (p.updMpe f).boot = p.boot := rfl
@[simp] theorem Plane.updMpe_rtc (p : Plane) (f : MpeSt → MpeSt) : (p.updMpe f).rtc = p.rtc := rfl
@[simp] theorem Plane.updMpe_mem (p : Plane) (f : MpeSt → MpeSt) : (p.updMpe f).mem = p.mem := rfl
@[simp] theorem Plane.updMpe_bkg (p : Plane) (f : MpeSt → MpeSt) : (p.updMpe f).bkg = p.bkg := rfl
@[simp] theorem Plane.updMpe_start (p : Plane) (f : MpeSt → MpeSt) : (p.updMpe f).start = p.start := rfl
@[simp] theorem Plane.updMpe_regs (p : Plane) (f : MpeSt → MpeSt) : (p.updMpe f).regs = p.regs := rfl
@[simp] theorem Plane.updMpe_rd (p : Plane) (f : MpeSt → MpeSt) (k : Nat) : (p.updMpe f).rd k = p.rd k := rfl
@[simp] theorem Plane.updMpe_cfg (p : Plane) (f : MpeSt → MpeSt) (k : Nat) : (p.updMpe f).cfg k = p.cfg k := rfl
@[simp] theorem Plane.updRed_id (p : Plane) (f : RedSt → RedSt) : (p.updRed f).id = p.id := rfl
@[simp] theorem Plane.updRed_phase (p : Plane) (f : RedSt → RedSt) : (p.updRed f).phase = p.phase := rfl
@[simp] theorem Plane.updRed_applied (p : Plane) (f : RedSt → RedSt) : (p.updRed f).applied = p.applied := rfl
@[simp] theorem Plane.updRed_cfgQ (p : Plane) (f : RedSt → RedSt) : (p.updRed f).cfgQ = p.cfgQ := rfl
@[simp] theorem Plane.updRed_grps (p : Plane) (f : RedSt → RedSt) : (p.updRed f).grps = p.grps := rfl
@[simp] theorem Plane.updRed_nextGrp (p : Plane) (f : RedSt → RedSt) : (p.updRed f).nextGrp = p.nextGrp := rfl
@[simp] theorem Plane.updRed_paths (p : Plane) (f : RedSt → RedSt) : (p.updRed f).paths = p.paths := rfl
@[simp] theorem Plane.updRed_sess (p : Plane) (f : RedSt → RedSt) : (p.updRed f).sess = p.sess := rfl
@[simp] theorem Plane.updRed_alias_ (p : Plane) (f : RedSt → RedSt) : (p.updRed f).alias_ = p.alias_ := rfl
@[simp] theorem Plane.updRed_dataPath (p : Plane) (f : RedSt → RedSt) : (p.updRed f).dataPath = p.dataPath := rfl
@[simp] theorem Plane.updRed_mpe (p : Plane) (f : RedSt → RedSt) : (p.updRed f).mpe = p.mpe := rfl
@[simp] theorem Plane.updRed_weir (p : Plane) (f : RedSt → RedSt) : (p.updRed f).weir = p.weir := rfl
@[simp] theorem Plane.updRed_points (p : Plane) (f : RedSt → RedSt) : (p.updRed f).points = p.points := rfl
@[simp] theorem Plane.updRed_heads (p : Plane) (f : RedSt → RedSt) : (p.updRed f).heads = p.heads := rfl
@[simp] theorem Plane.updRed_meter (p : Plane) (f : RedSt → RedSt) : (p.updRed f).meter = p.meter := rfl
@[simp] theorem Plane.updRed_acct (p : Plane) (f : RedSt → RedSt) : (p.updRed f).acct = p.acct := rfl
@[simp] theorem Plane.updRed_pulses (p : Plane) (f : RedSt → RedSt) : (p.updRed f).pulses = p.pulses := rfl
@[simp] theorem Plane.updRed_red (p : Plane) (f : RedSt → RedSt) : (p.updRed f).red = f p.red := rfl
@[simp] theorem Plane.updRed_tarn (p : Plane) (f : RedSt → RedSt) : (p.updRed f).tarn = p.tarn := rfl
@[simp] theorem Plane.updRed_evr (p : Plane) (f : RedSt → RedSt) : (p.updRed f).evr = p.evr := rfl
@[simp] theorem Plane.updRed_canRx (p : Plane) (f : RedSt → RedSt) : (p.updRed f).canRx = p.canRx := rfl
@[simp] theorem Plane.updRed_scan (p : Plane) (f : RedSt → RedSt) : (p.updRed f).scan = p.scan := rfl
@[simp] theorem Plane.updRed_loops (p : Plane) (f : RedSt → RedSt) : (p.updRed f).loops = p.loops := rfl
@[simp] theorem Plane.updRed_sections (p : Plane) (f : RedSt → RedSt) : (p.updRed f).sections = p.sections := rfl
@[simp] theorem Plane.updRed_keys (p : Plane) (f : RedSt → RedSt) : (p.updRed f).keys = p.keys := rfl
@[simp] theorem Plane.updRed_crypto (p : Plane) (f : RedSt → RedSt) : (p.updRed f).crypto = p.crypto := rfl
@[simp] theorem Plane.updRed_boot (p : Plane) (f : RedSt → RedSt) : (p.updRed f).boot = p.boot := rfl
@[simp] theorem Plane.updRed_rtc (p : Plane) (f : RedSt → RedSt) : (p.updRed f).rtc = p.rtc := rfl
@[simp] theorem Plane.updRed_mem (p : Plane) (f : RedSt → RedSt) : (p.updRed f).mem = p.mem := rfl
@[simp] theorem Plane.updRed_bkg (p : Plane) (f : RedSt → RedSt) : (p.updRed f).bkg = p.bkg := rfl
@[simp] theorem Plane.updRed_start (p : Plane) (f : RedSt → RedSt) : (p.updRed f).start = p.start := rfl
@[simp] theorem Plane.updRed_regs (p : Plane) (f : RedSt → RedSt) : (p.updRed f).regs = p.regs := rfl
@[simp] theorem Plane.updRed_rd (p : Plane) (f : RedSt → RedSt) (k : Nat) : (p.updRed f).rd k = p.rd k := rfl
@[simp] theorem Plane.updRed_cfg (p : Plane) (f : RedSt → RedSt) (k : Nat) : (p.updRed f).cfg k = p.cfg k := rfl
@[simp] theorem Plane.updTarn_id (p : Plane) (f : TarnSt → TarnSt) : (p.updTarn f).id = p.id := rfl
@[simp] theorem Plane.updTarn_phase (p : Plane) (f : TarnSt → TarnSt) : (p.updTarn f).phase = p.phase := rfl
@[simp] theorem Plane.updTarn_applied (p : Plane) (f : TarnSt → TarnSt) : (p.updTarn f).applied = p.applied := rfl
@[simp] theorem Plane.updTarn_cfgQ (p : Plane) (f : TarnSt → TarnSt) : (p.updTarn f).cfgQ = p.cfgQ := rfl
@[simp] theorem Plane.updTarn_grps (p : Plane) (f : TarnSt → TarnSt) : (p.updTarn f).grps = p.grps := rfl
@[simp] theorem Plane.updTarn_nextGrp (p : Plane) (f : TarnSt → TarnSt) : (p.updTarn f).nextGrp = p.nextGrp := rfl
@[simp] theorem Plane.updTarn_paths (p : Plane) (f : TarnSt → TarnSt) : (p.updTarn f).paths = p.paths := rfl
@[simp] theorem Plane.updTarn_sess (p : Plane) (f : TarnSt → TarnSt) : (p.updTarn f).sess = p.sess := rfl
@[simp] theorem Plane.updTarn_alias_ (p : Plane) (f : TarnSt → TarnSt) : (p.updTarn f).alias_ = p.alias_ := rfl
@[simp] theorem Plane.updTarn_dataPath (p : Plane) (f : TarnSt → TarnSt) : (p.updTarn f).dataPath = p.dataPath := rfl
@[simp] theorem Plane.updTarn_mpe (p : Plane) (f : TarnSt → TarnSt) : (p.updTarn f).mpe = p.mpe := rfl
@[simp] theorem Plane.updTarn_weir (p : Plane) (f : TarnSt → TarnSt) : (p.updTarn f).weir = p.weir := rfl
@[simp] theorem Plane.updTarn_points (p : Plane) (f : TarnSt → TarnSt) : (p.updTarn f).points = p.points := rfl
@[simp] theorem Plane.updTarn_heads (p : Plane) (f : TarnSt → TarnSt) : (p.updTarn f).heads = p.heads := rfl
@[simp] theorem Plane.updTarn_meter (p : Plane) (f : TarnSt → TarnSt) : (p.updTarn f).meter = p.meter := rfl
@[simp] theorem Plane.updTarn_acct (p : Plane) (f : TarnSt → TarnSt) : (p.updTarn f).acct = p.acct := rfl
@[simp] theorem Plane.updTarn_pulses (p : Plane) (f : TarnSt → TarnSt) : (p.updTarn f).pulses = p.pulses := rfl
@[simp] theorem Plane.updTarn_red (p : Plane) (f : TarnSt → TarnSt) : (p.updTarn f).red = p.red := rfl
@[simp] theorem Plane.updTarn_tarn (p : Plane) (f : TarnSt → TarnSt) : (p.updTarn f).tarn = f p.tarn := rfl
@[simp] theorem Plane.updTarn_evr (p : Plane) (f : TarnSt → TarnSt) : (p.updTarn f).evr = p.evr := rfl
@[simp] theorem Plane.updTarn_canRx (p : Plane) (f : TarnSt → TarnSt) : (p.updTarn f).canRx = p.canRx := rfl
@[simp] theorem Plane.updTarn_scan (p : Plane) (f : TarnSt → TarnSt) : (p.updTarn f).scan = p.scan := rfl
@[simp] theorem Plane.updTarn_loops (p : Plane) (f : TarnSt → TarnSt) : (p.updTarn f).loops = p.loops := rfl
@[simp] theorem Plane.updTarn_sections (p : Plane) (f : TarnSt → TarnSt) : (p.updTarn f).sections = p.sections := rfl
@[simp] theorem Plane.updTarn_keys (p : Plane) (f : TarnSt → TarnSt) : (p.updTarn f).keys = p.keys := rfl
@[simp] theorem Plane.updTarn_crypto (p : Plane) (f : TarnSt → TarnSt) : (p.updTarn f).crypto = p.crypto := rfl
@[simp] theorem Plane.updTarn_boot (p : Plane) (f : TarnSt → TarnSt) : (p.updTarn f).boot = p.boot := rfl
@[simp] theorem Plane.updTarn_rtc (p : Plane) (f : TarnSt → TarnSt) : (p.updTarn f).rtc = p.rtc := rfl
@[simp] theorem Plane.updTarn_mem (p : Plane) (f : TarnSt → TarnSt) : (p.updTarn f).mem = p.mem := rfl
@[simp] theorem Plane.updTarn_bkg (p : Plane) (f : TarnSt → TarnSt) : (p.updTarn f).bkg = p.bkg := rfl
@[simp] theorem Plane.updTarn_start (p : Plane) (f : TarnSt → TarnSt) : (p.updTarn f).start = p.start := rfl
@[simp] theorem Plane.updTarn_regs (p : Plane) (f : TarnSt → TarnSt) : (p.updTarn f).regs = p.regs := rfl
@[simp] theorem Plane.updTarn_rd (p : Plane) (f : TarnSt → TarnSt) (k : Nat) : (p.updTarn f).rd k = p.rd k := rfl
@[simp] theorem Plane.updTarn_cfg (p : Plane) (f : TarnSt → TarnSt) (k : Nat) : (p.updTarn f).cfg k = p.cfg k := rfl
@[simp] theorem Plane.updBoot_id (p : Plane) (f : BootSt → BootSt) : (p.updBoot f).id = p.id := rfl
@[simp] theorem Plane.updBoot_phase (p : Plane) (f : BootSt → BootSt) : (p.updBoot f).phase = p.phase := rfl
@[simp] theorem Plane.updBoot_applied (p : Plane) (f : BootSt → BootSt) : (p.updBoot f).applied = p.applied := rfl
@[simp] theorem Plane.updBoot_cfgQ (p : Plane) (f : BootSt → BootSt) : (p.updBoot f).cfgQ = p.cfgQ := rfl
@[simp] theorem Plane.updBoot_grps (p : Plane) (f : BootSt → BootSt) : (p.updBoot f).grps = p.grps := rfl
@[simp] theorem Plane.updBoot_nextGrp (p : Plane) (f : BootSt → BootSt) : (p.updBoot f).nextGrp = p.nextGrp := rfl
@[simp] theorem Plane.updBoot_paths (p : Plane) (f : BootSt → BootSt) : (p.updBoot f).paths = p.paths := rfl
@[simp] theorem Plane.updBoot_sess (p : Plane) (f : BootSt → BootSt) : (p.updBoot f).sess = p.sess := rfl
@[simp] theorem Plane.updBoot_alias_ (p : Plane) (f : BootSt → BootSt) : (p.updBoot f).alias_ = p.alias_ := rfl
@[simp] theorem Plane.updBoot_dataPath (p : Plane) (f : BootSt → BootSt) : (p.updBoot f).dataPath = p.dataPath := rfl
@[simp] theorem Plane.updBoot_mpe (p : Plane) (f : BootSt → BootSt) : (p.updBoot f).mpe = p.mpe := rfl
@[simp] theorem Plane.updBoot_weir (p : Plane) (f : BootSt → BootSt) : (p.updBoot f).weir = p.weir := rfl
@[simp] theorem Plane.updBoot_points (p : Plane) (f : BootSt → BootSt) : (p.updBoot f).points = p.points := rfl
@[simp] theorem Plane.updBoot_heads (p : Plane) (f : BootSt → BootSt) : (p.updBoot f).heads = p.heads := rfl
@[simp] theorem Plane.updBoot_meter (p : Plane) (f : BootSt → BootSt) : (p.updBoot f).meter = p.meter := rfl
@[simp] theorem Plane.updBoot_acct (p : Plane) (f : BootSt → BootSt) : (p.updBoot f).acct = p.acct := rfl
@[simp] theorem Plane.updBoot_pulses (p : Plane) (f : BootSt → BootSt) : (p.updBoot f).pulses = p.pulses := rfl
@[simp] theorem Plane.updBoot_red (p : Plane) (f : BootSt → BootSt) : (p.updBoot f).red = p.red := rfl
@[simp] theorem Plane.updBoot_tarn (p : Plane) (f : BootSt → BootSt) : (p.updBoot f).tarn = p.tarn := rfl
@[simp] theorem Plane.updBoot_evr (p : Plane) (f : BootSt → BootSt) : (p.updBoot f).evr = p.evr := rfl
@[simp] theorem Plane.updBoot_canRx (p : Plane) (f : BootSt → BootSt) : (p.updBoot f).canRx = p.canRx := rfl
@[simp] theorem Plane.updBoot_scan (p : Plane) (f : BootSt → BootSt) : (p.updBoot f).scan = p.scan := rfl
@[simp] theorem Plane.updBoot_loops (p : Plane) (f : BootSt → BootSt) : (p.updBoot f).loops = p.loops := rfl
@[simp] theorem Plane.updBoot_sections (p : Plane) (f : BootSt → BootSt) : (p.updBoot f).sections = p.sections := rfl
@[simp] theorem Plane.updBoot_keys (p : Plane) (f : BootSt → BootSt) : (p.updBoot f).keys = p.keys := rfl
@[simp] theorem Plane.updBoot_crypto (p : Plane) (f : BootSt → BootSt) : (p.updBoot f).crypto = p.crypto := rfl
@[simp] theorem Plane.updBoot_boot (p : Plane) (f : BootSt → BootSt) : (p.updBoot f).boot = f p.boot := rfl
@[simp] theorem Plane.updBoot_rtc (p : Plane) (f : BootSt → BootSt) : (p.updBoot f).rtc = p.rtc := rfl
@[simp] theorem Plane.updBoot_mem (p : Plane) (f : BootSt → BootSt) : (p.updBoot f).mem = p.mem := rfl
@[simp] theorem Plane.updBoot_bkg (p : Plane) (f : BootSt → BootSt) : (p.updBoot f).bkg = p.bkg := rfl
@[simp] theorem Plane.updBoot_start (p : Plane) (f : BootSt → BootSt) : (p.updBoot f).start = p.start := rfl
@[simp] theorem Plane.updBoot_regs (p : Plane) (f : BootSt → BootSt) : (p.updBoot f).regs = p.regs := rfl
@[simp] theorem Plane.updBoot_rd (p : Plane) (f : BootSt → BootSt) (k : Nat) : (p.updBoot f).rd k = p.rd k := rfl
@[simp] theorem Plane.updBoot_cfg (p : Plane) (f : BootSt → BootSt) (k : Nat) : (p.updBoot f).cfg k = p.cfg k := rfl
@[simp] theorem Plane.updRtc_id (p : Plane) (f : RtcSt → RtcSt) : (p.updRtc f).id = p.id := rfl
@[simp] theorem Plane.updRtc_phase (p : Plane) (f : RtcSt → RtcSt) : (p.updRtc f).phase = p.phase := rfl
@[simp] theorem Plane.updRtc_applied (p : Plane) (f : RtcSt → RtcSt) : (p.updRtc f).applied = p.applied := rfl
@[simp] theorem Plane.updRtc_cfgQ (p : Plane) (f : RtcSt → RtcSt) : (p.updRtc f).cfgQ = p.cfgQ := rfl
@[simp] theorem Plane.updRtc_grps (p : Plane) (f : RtcSt → RtcSt) : (p.updRtc f).grps = p.grps := rfl
@[simp] theorem Plane.updRtc_nextGrp (p : Plane) (f : RtcSt → RtcSt) : (p.updRtc f).nextGrp = p.nextGrp := rfl
@[simp] theorem Plane.updRtc_paths (p : Plane) (f : RtcSt → RtcSt) : (p.updRtc f).paths = p.paths := rfl
@[simp] theorem Plane.updRtc_sess (p : Plane) (f : RtcSt → RtcSt) : (p.updRtc f).sess = p.sess := rfl
@[simp] theorem Plane.updRtc_alias_ (p : Plane) (f : RtcSt → RtcSt) : (p.updRtc f).alias_ = p.alias_ := rfl
@[simp] theorem Plane.updRtc_dataPath (p : Plane) (f : RtcSt → RtcSt) : (p.updRtc f).dataPath = p.dataPath := rfl
@[simp] theorem Plane.updRtc_mpe (p : Plane) (f : RtcSt → RtcSt) : (p.updRtc f).mpe = p.mpe := rfl
@[simp] theorem Plane.updRtc_weir (p : Plane) (f : RtcSt → RtcSt) : (p.updRtc f).weir = p.weir := rfl
@[simp] theorem Plane.updRtc_points (p : Plane) (f : RtcSt → RtcSt) : (p.updRtc f).points = p.points := rfl
@[simp] theorem Plane.updRtc_heads (p : Plane) (f : RtcSt → RtcSt) : (p.updRtc f).heads = p.heads := rfl
@[simp] theorem Plane.updRtc_meter (p : Plane) (f : RtcSt → RtcSt) : (p.updRtc f).meter = p.meter := rfl
@[simp] theorem Plane.updRtc_acct (p : Plane) (f : RtcSt → RtcSt) : (p.updRtc f).acct = p.acct := rfl
@[simp] theorem Plane.updRtc_pulses (p : Plane) (f : RtcSt → RtcSt) : (p.updRtc f).pulses = p.pulses := rfl
@[simp] theorem Plane.updRtc_red (p : Plane) (f : RtcSt → RtcSt) : (p.updRtc f).red = p.red := rfl
@[simp] theorem Plane.updRtc_tarn (p : Plane) (f : RtcSt → RtcSt) : (p.updRtc f).tarn = p.tarn := rfl
@[simp] theorem Plane.updRtc_evr (p : Plane) (f : RtcSt → RtcSt) : (p.updRtc f).evr = p.evr := rfl
@[simp] theorem Plane.updRtc_canRx (p : Plane) (f : RtcSt → RtcSt) : (p.updRtc f).canRx = p.canRx := rfl
@[simp] theorem Plane.updRtc_scan (p : Plane) (f : RtcSt → RtcSt) : (p.updRtc f).scan = p.scan := rfl
@[simp] theorem Plane.updRtc_loops (p : Plane) (f : RtcSt → RtcSt) : (p.updRtc f).loops = p.loops := rfl
@[simp] theorem Plane.updRtc_sections (p : Plane) (f : RtcSt → RtcSt) : (p.updRtc f).sections = p.sections := rfl
@[simp] theorem Plane.updRtc_keys (p : Plane) (f : RtcSt → RtcSt) : (p.updRtc f).keys = p.keys := rfl
@[simp] theorem Plane.updRtc_crypto (p : Plane) (f : RtcSt → RtcSt) : (p.updRtc f).crypto = p.crypto := rfl
@[simp] theorem Plane.updRtc_boot (p : Plane) (f : RtcSt → RtcSt) : (p.updRtc f).boot = p.boot := rfl
@[simp] theorem Plane.updRtc_rtc (p : Plane) (f : RtcSt → RtcSt) : (p.updRtc f).rtc = f p.rtc := rfl
@[simp] theorem Plane.updRtc_mem (p : Plane) (f : RtcSt → RtcSt) : (p.updRtc f).mem = p.mem := rfl
@[simp] theorem Plane.updRtc_bkg (p : Plane) (f : RtcSt → RtcSt) : (p.updRtc f).bkg = p.bkg := rfl
@[simp] theorem Plane.updRtc_start (p : Plane) (f : RtcSt → RtcSt) : (p.updRtc f).start = p.start := rfl
@[simp] theorem Plane.updRtc_regs (p : Plane) (f : RtcSt → RtcSt) : (p.updRtc f).regs = p.regs := rfl
@[simp] theorem Plane.updRtc_rd (p : Plane) (f : RtcSt → RtcSt) (k : Nat) : (p.updRtc f).rd k = p.rd k := rfl
@[simp] theorem Plane.updRtc_cfg (p : Plane) (f : RtcSt → RtcSt) (k : Nat) : (p.updRtc f).cfg k = p.cfg k := rfl
@[simp] theorem Plane.updStart_id (p : Plane) (f : StartSt → StartSt) : (p.updStart f).id = p.id := rfl
@[simp] theorem Plane.updStart_phase (p : Plane) (f : StartSt → StartSt) : (p.updStart f).phase = p.phase := rfl
@[simp] theorem Plane.updStart_applied (p : Plane) (f : StartSt → StartSt) : (p.updStart f).applied = p.applied := rfl
@[simp] theorem Plane.updStart_cfgQ (p : Plane) (f : StartSt → StartSt) : (p.updStart f).cfgQ = p.cfgQ := rfl
@[simp] theorem Plane.updStart_grps (p : Plane) (f : StartSt → StartSt) : (p.updStart f).grps = p.grps := rfl
@[simp] theorem Plane.updStart_nextGrp (p : Plane) (f : StartSt → StartSt) : (p.updStart f).nextGrp = p.nextGrp := rfl
@[simp] theorem Plane.updStart_paths (p : Plane) (f : StartSt → StartSt) : (p.updStart f).paths = p.paths := rfl
@[simp] theorem Plane.updStart_sess (p : Plane) (f : StartSt → StartSt) : (p.updStart f).sess = p.sess := rfl
@[simp] theorem Plane.updStart_alias_ (p : Plane) (f : StartSt → StartSt) : (p.updStart f).alias_ = p.alias_ := rfl
@[simp] theorem Plane.updStart_dataPath (p : Plane) (f : StartSt → StartSt) : (p.updStart f).dataPath = p.dataPath := rfl
@[simp] theorem Plane.updStart_mpe (p : Plane) (f : StartSt → StartSt) : (p.updStart f).mpe = p.mpe := rfl
@[simp] theorem Plane.updStart_weir (p : Plane) (f : StartSt → StartSt) : (p.updStart f).weir = p.weir := rfl
@[simp] theorem Plane.updStart_points (p : Plane) (f : StartSt → StartSt) : (p.updStart f).points = p.points := rfl
@[simp] theorem Plane.updStart_heads (p : Plane) (f : StartSt → StartSt) : (p.updStart f).heads = p.heads := rfl
@[simp] theorem Plane.updStart_meter (p : Plane) (f : StartSt → StartSt) : (p.updStart f).meter = p.meter := rfl
@[simp] theorem Plane.updStart_acct (p : Plane) (f : StartSt → StartSt) : (p.updStart f).acct = p.acct := rfl
@[simp] theorem Plane.updStart_pulses (p : Plane) (f : StartSt → StartSt) : (p.updStart f).pulses = p.pulses := rfl
@[simp] theorem Plane.updStart_red (p : Plane) (f : StartSt → StartSt) : (p.updStart f).red = p.red := rfl
@[simp] theorem Plane.updStart_tarn (p : Plane) (f : StartSt → StartSt) : (p.updStart f).tarn = p.tarn := rfl
@[simp] theorem Plane.updStart_evr (p : Plane) (f : StartSt → StartSt) : (p.updStart f).evr = p.evr := rfl
@[simp] theorem Plane.updStart_canRx (p : Plane) (f : StartSt → StartSt) : (p.updStart f).canRx = p.canRx := rfl
@[simp] theorem Plane.updStart_scan (p : Plane) (f : StartSt → StartSt) : (p.updStart f).scan = p.scan := rfl
@[simp] theorem Plane.updStart_loops (p : Plane) (f : StartSt → StartSt) : (p.updStart f).loops = p.loops := rfl
@[simp] theorem Plane.updStart_sections (p : Plane) (f : StartSt → StartSt) : (p.updStart f).sections = p.sections := rfl
@[simp] theorem Plane.updStart_keys (p : Plane) (f : StartSt → StartSt) : (p.updStart f).keys = p.keys := rfl
@[simp] theorem Plane.updStart_crypto (p : Plane) (f : StartSt → StartSt) : (p.updStart f).crypto = p.crypto := rfl
@[simp] theorem Plane.updStart_boot (p : Plane) (f : StartSt → StartSt) : (p.updStart f).boot = p.boot := rfl
@[simp] theorem Plane.updStart_rtc (p : Plane) (f : StartSt → StartSt) : (p.updStart f).rtc = p.rtc := rfl
@[simp] theorem Plane.updStart_mem (p : Plane) (f : StartSt → StartSt) : (p.updStart f).mem = p.mem := rfl
@[simp] theorem Plane.updStart_bkg (p : Plane) (f : StartSt → StartSt) : (p.updStart f).bkg = p.bkg := rfl
@[simp] theorem Plane.updStart_start (p : Plane) (f : StartSt → StartSt) : (p.updStart f).start = f p.start := rfl
@[simp] theorem Plane.updStart_regs (p : Plane) (f : StartSt → StartSt) : (p.updStart f).regs = p.regs := rfl
@[simp] theorem Plane.updStart_rd (p : Plane) (f : StartSt → StartSt) (k : Nat) : (p.updStart f).rd k = p.rd k := rfl
@[simp] theorem Plane.updStart_cfg (p : Plane) (f : StartSt → StartSt) (k : Nat) : (p.updStart f).cfg k = p.cfg k := rfl
@[simp] theorem Plane.updScan_id (p : Plane) (f : ScanSt → ScanSt) : (p.updScan f).id = p.id := rfl
@[simp] theorem Plane.updScan_phase (p : Plane) (f : ScanSt → ScanSt) : (p.updScan f).phase = p.phase := rfl
@[simp] theorem Plane.updScan_applied (p : Plane) (f : ScanSt → ScanSt) : (p.updScan f).applied = p.applied := rfl
@[simp] theorem Plane.updScan_cfgQ (p : Plane) (f : ScanSt → ScanSt) : (p.updScan f).cfgQ = p.cfgQ := rfl
@[simp] theorem Plane.updScan_grps (p : Plane) (f : ScanSt → ScanSt) : (p.updScan f).grps = p.grps := rfl
@[simp] theorem Plane.updScan_nextGrp (p : Plane) (f : ScanSt → ScanSt) : (p.updScan f).nextGrp = p.nextGrp := rfl
@[simp] theorem Plane.updScan_paths (p : Plane) (f : ScanSt → ScanSt) : (p.updScan f).paths = p.paths := rfl
@[simp] theorem Plane.updScan_sess (p : Plane) (f : ScanSt → ScanSt) : (p.updScan f).sess = p.sess := rfl
@[simp] theorem Plane.updScan_alias_ (p : Plane) (f : ScanSt → ScanSt) : (p.updScan f).alias_ = p.alias_ := rfl
@[simp] theorem Plane.updScan_dataPath (p : Plane) (f : ScanSt → ScanSt) : (p.updScan f).dataPath = p.dataPath := rfl
@[simp] theorem Plane.updScan_mpe (p : Plane) (f : ScanSt → ScanSt) : (p.updScan f).mpe = p.mpe := rfl
@[simp] theorem Plane.updScan_weir (p : Plane) (f : ScanSt → ScanSt) : (p.updScan f).weir = p.weir := rfl
@[simp] theorem Plane.updScan_points (p : Plane) (f : ScanSt → ScanSt) : (p.updScan f).points = p.points := rfl
@[simp] theorem Plane.updScan_heads (p : Plane) (f : ScanSt → ScanSt) : (p.updScan f).heads = p.heads := rfl
@[simp] theorem Plane.updScan_meter (p : Plane) (f : ScanSt → ScanSt) : (p.updScan f).meter = p.meter := rfl
@[simp] theorem Plane.updScan_acct (p : Plane) (f : ScanSt → ScanSt) : (p.updScan f).acct = p.acct := rfl
@[simp] theorem Plane.updScan_pulses (p : Plane) (f : ScanSt → ScanSt) : (p.updScan f).pulses = p.pulses := rfl
@[simp] theorem Plane.updScan_red (p : Plane) (f : ScanSt → ScanSt) : (p.updScan f).red = p.red := rfl
@[simp] theorem Plane.updScan_tarn (p : Plane) (f : ScanSt → ScanSt) : (p.updScan f).tarn = p.tarn := rfl
@[simp] theorem Plane.updScan_evr (p : Plane) (f : ScanSt → ScanSt) : (p.updScan f).evr = p.evr := rfl
@[simp] theorem Plane.updScan_canRx (p : Plane) (f : ScanSt → ScanSt) : (p.updScan f).canRx = p.canRx := rfl
@[simp] theorem Plane.updScan_scan (p : Plane) (f : ScanSt → ScanSt) : (p.updScan f).scan = f p.scan := rfl
@[simp] theorem Plane.updScan_loops (p : Plane) (f : ScanSt → ScanSt) : (p.updScan f).loops = p.loops := rfl
@[simp] theorem Plane.updScan_sections (p : Plane) (f : ScanSt → ScanSt) : (p.updScan f).sections = p.sections := rfl
@[simp] theorem Plane.updScan_keys (p : Plane) (f : ScanSt → ScanSt) : (p.updScan f).keys = p.keys := rfl
@[simp] theorem Plane.updScan_crypto (p : Plane) (f : ScanSt → ScanSt) : (p.updScan f).crypto = p.crypto := rfl
@[simp] theorem Plane.updScan_boot (p : Plane) (f : ScanSt → ScanSt) : (p.updScan f).boot = p.boot := rfl
@[simp] theorem Plane.updScan_rtc (p : Plane) (f : ScanSt → ScanSt) : (p.updScan f).rtc = p.rtc := rfl
@[simp] theorem Plane.updScan_mem (p : Plane) (f : ScanSt → ScanSt) : (p.updScan f).mem = p.mem := rfl
@[simp] theorem Plane.updScan_bkg (p : Plane) (f : ScanSt → ScanSt) : (p.updScan f).bkg = p.bkg := rfl
@[simp] theorem Plane.updScan_start (p : Plane) (f : ScanSt → ScanSt) : (p.updScan f).start = p.start := rfl
@[simp] theorem Plane.updScan_regs (p : Plane) (f : ScanSt → ScanSt) : (p.updScan f).regs = p.regs := rfl
@[simp] theorem Plane.updScan_rd (p : Plane) (f : ScanSt → ScanSt) (k : Nat) : (p.updScan f).rd k = p.rd k := rfl
@[simp] theorem Plane.updScan_cfg (p : Plane) (f : ScanSt → ScanSt) (k : Nat) : (p.updScan f).cfg k = p.cfg k := rfl
@[simp] theorem Plane.setSlot_id (p : Plane) (n : Nat) (x : Slot) : (p.setSlot n x).id = p.id := rfl
@[simp] theorem Plane.setSlot_phase (p : Plane) (n : Nat) (x : Slot) : (p.setSlot n x).phase = p.phase := rfl
@[simp] theorem Plane.setSlot_applied (p : Plane) (n : Nat) (x : Slot) : (p.setSlot n x).applied = p.applied := rfl
@[simp] theorem Plane.setSlot_cfgQ (p : Plane) (n : Nat) (x : Slot) : (p.setSlot n x).cfgQ = p.cfgQ := rfl
@[simp] theorem Plane.setSlot_grps (p : Plane) (n : Nat) (x : Slot) : (p.setSlot n x).grps = p.grps := rfl
@[simp] theorem Plane.setSlot_nextGrp (p : Plane) (n : Nat) (x : Slot) : (p.setSlot n x).nextGrp = p.nextGrp := rfl
@[simp] theorem Plane.setSlot_paths (p : Plane) (n : Nat) (x : Slot) : (p.setSlot n x).paths = p.paths := rfl
@[simp] theorem Plane.setSlot_sess (p : Plane) (n : Nat) (x : Slot) : (p.setSlot n x).sess = p.sess := rfl
@[simp] theorem Plane.setSlot_alias_ (p : Plane) (n : Nat) (x : Slot) : (p.setSlot n x).alias_ = p.alias_ := rfl
@[simp] theorem Plane.setSlot_dataPath (p : Plane) (n : Nat) (x : Slot) : (p.setSlot n x).dataPath = p.dataPath := rfl
@[simp] theorem Plane.setSlot_mpe (p : Plane) (n : Nat) (x : Slot) : (p.setSlot n x).mpe = p.mpe := rfl
@[simp] theorem Plane.setSlot_points (p : Plane) (n : Nat) (x : Slot) : (p.setSlot n x).points = p.points := rfl
@[simp] theorem Plane.setSlot_heads (p : Plane) (n : Nat) (x : Slot) : (p.setSlot n x).heads = p.heads := rfl
@[simp] theorem Plane.setSlot_meter (p : Plane) (n : Nat) (x : Slot) : (p.setSlot n x).meter = p.meter := rfl
@[simp] theorem Plane.setSlot_acct (p : Plane) (n : Nat) (x : Slot) : (p.setSlot n x).acct = p.acct := rfl
@[simp] theorem Plane.setSlot_pulses (p : Plane) (n : Nat) (x : Slot) : (p.setSlot n x).pulses = p.pulses := rfl
@[simp] theorem Plane.setSlot_red (p : Plane) (n : Nat) (x : Slot) : (p.setSlot n x).red = p.red := rfl
@[simp] theorem Plane.setSlot_tarn (p : Plane) (n : Nat) (x : Slot) : (p.setSlot n x).tarn = p.tarn := rfl
@[simp] theorem Plane.setSlot_evr (p : Plane) (n : Nat) (x : Slot) : (p.setSlot n x).evr = p.evr := rfl
@[simp] theorem Plane.setSlot_canRx (p : Plane) (n : Nat) (x : Slot) : (p.setSlot n x).canRx = p.canRx := rfl
@[simp] theorem Plane.setSlot_scan (p : Plane) (n : Nat) (x : Slot) : (p.setSlot n x).scan = p.scan := rfl
@[simp] theorem Plane.setSlot_loops (p : Plane) (n : Nat) (x : Slot) : (p.setSlot n x).loops = p.loops := rfl
@[simp] theorem Plane.setSlot_sections (p : Plane) (n : Nat) (x : Slot) : (p.setSlot n x).sections = p.sections := rfl
@[simp] theorem Plane.setSlot_keys (p : Plane) (n : Nat) (x : Slot) : (p.setSlot n x).keys = p.keys := rfl
@[simp] theorem Plane.setSlot_crypto (p : Plane) (n : Nat) (x : Slot) : (p.setSlot n x).crypto = p.crypto := rfl
@[simp] theorem Plane.setSlot_boot (p : Plane) (n : Nat) (x : Slot) : (p.setSlot n x).boot = p.boot := rfl
@[simp] theorem Plane.setSlot_rtc (p : Plane) (n : Nat) (x : Slot) : (p.setSlot n x).rtc = p.rtc := rfl
@[simp] theorem Plane.setSlot_mem (p : Plane) (n : Nat) (x : Slot) : (p.setSlot n x).mem = p.mem := rfl
@[simp] theorem Plane.setSlot_bkg (p : Plane) (n : Nat) (x : Slot) : (p.setSlot n x).bkg = p.bkg := rfl
@[simp] theorem Plane.setSlot_start (p : Plane) (n : Nat) (x : Slot) : (p.setSlot n x).start = p.start := rfl
@[simp] theorem Plane.setSlot_regs (p : Plane) (n : Nat) (x : Slot) : (p.setSlot n x).regs = p.regs := rfl
@[simp] theorem Plane.setSlot_rd (p : Plane) (n : Nat) (x : Slot) (k : Nat) : (p.setSlot n x).rd k = p.rd k := rfl
@[simp] theorem Plane.setSlot_cfg (p : Plane) (n : Nat) (x : Slot) (k : Nat) : (p.setSlot n x).cfg k = p.cfg k := rfl
@[simp] theorem Plane.setHead_id (p : Plane) (n : Nat) (x : HeadSt) : (p.setHead n x).id = p.id := rfl
@[simp] theorem Plane.setHead_phase (p : Plane) (n : Nat) (x : HeadSt) : (p.setHead n x).phase = p.phase := rfl
@[simp] theorem Plane.setHead_applied (p : Plane) (n : Nat) (x : HeadSt) : (p.setHead n x).applied = p.applied := rfl
@[simp] theorem Plane.setHead_cfgQ (p : Plane) (n : Nat) (x : HeadSt) : (p.setHead n x).cfgQ = p.cfgQ := rfl
@[simp] theorem Plane.setHead_grps (p : Plane) (n : Nat) (x : HeadSt) : (p.setHead n x).grps = p.grps := rfl
@[simp] theorem Plane.setHead_nextGrp (p : Plane) (n : Nat) (x : HeadSt) : (p.setHead n x).nextGrp = p.nextGrp := rfl
@[simp] theorem Plane.setHead_paths (p : Plane) (n : Nat) (x : HeadSt) : (p.setHead n x).paths = p.paths := rfl
@[simp] theorem Plane.setHead_sess (p : Plane) (n : Nat) (x : HeadSt) : (p.setHead n x).sess = p.sess := rfl
@[simp] theorem Plane.setHead_alias_ (p : Plane) (n : Nat) (x : HeadSt) : (p.setHead n x).alias_ = p.alias_ := rfl
@[simp] theorem Plane.setHead_dataPath (p : Plane) (n : Nat) (x : HeadSt) : (p.setHead n x).dataPath = p.dataPath := rfl
@[simp] theorem Plane.setHead_mpe (p : Plane) (n : Nat) (x : HeadSt) : (p.setHead n x).mpe = p.mpe := rfl
@[simp] theorem Plane.setHead_weir (p : Plane) (n : Nat) (x : HeadSt) : (p.setHead n x).weir = p.weir := rfl
@[simp] theorem Plane.setHead_points (p : Plane) (n : Nat) (x : HeadSt) : (p.setHead n x).points = p.points := rfl
@[simp] theorem Plane.setHead_meter (p : Plane) (n : Nat) (x : HeadSt) : (p.setHead n x).meter = p.meter := rfl
@[simp] theorem Plane.setHead_acct (p : Plane) (n : Nat) (x : HeadSt) : (p.setHead n x).acct = p.acct := rfl
@[simp] theorem Plane.setHead_pulses (p : Plane) (n : Nat) (x : HeadSt) : (p.setHead n x).pulses = p.pulses := rfl
@[simp] theorem Plane.setHead_red (p : Plane) (n : Nat) (x : HeadSt) : (p.setHead n x).red = p.red := rfl
@[simp] theorem Plane.setHead_tarn (p : Plane) (n : Nat) (x : HeadSt) : (p.setHead n x).tarn = p.tarn := rfl
@[simp] theorem Plane.setHead_evr (p : Plane) (n : Nat) (x : HeadSt) : (p.setHead n x).evr = p.evr := rfl
@[simp] theorem Plane.setHead_canRx (p : Plane) (n : Nat) (x : HeadSt) : (p.setHead n x).canRx = p.canRx := rfl
@[simp] theorem Plane.setHead_scan (p : Plane) (n : Nat) (x : HeadSt) : (p.setHead n x).scan = p.scan := rfl
@[simp] theorem Plane.setHead_loops (p : Plane) (n : Nat) (x : HeadSt) : (p.setHead n x).loops = p.loops := rfl
@[simp] theorem Plane.setHead_sections (p : Plane) (n : Nat) (x : HeadSt) : (p.setHead n x).sections = p.sections := rfl
@[simp] theorem Plane.setHead_keys (p : Plane) (n : Nat) (x : HeadSt) : (p.setHead n x).keys = p.keys := rfl
@[simp] theorem Plane.setHead_crypto (p : Plane) (n : Nat) (x : HeadSt) : (p.setHead n x).crypto = p.crypto := rfl
@[simp] theorem Plane.setHead_boot (p : Plane) (n : Nat) (x : HeadSt) : (p.setHead n x).boot = p.boot := rfl
@[simp] theorem Plane.setHead_rtc (p : Plane) (n : Nat) (x : HeadSt) : (p.setHead n x).rtc = p.rtc := rfl
@[simp] theorem Plane.setHead_mem (p : Plane) (n : Nat) (x : HeadSt) : (p.setHead n x).mem = p.mem := rfl
@[simp] theorem Plane.setHead_bkg (p : Plane) (n : Nat) (x : HeadSt) : (p.setHead n x).bkg = p.bkg := rfl
@[simp] theorem Plane.setHead_start (p : Plane) (n : Nat) (x : HeadSt) : (p.setHead n x).start = p.start := rfl
@[simp] theorem Plane.setHead_regs (p : Plane) (n : Nat) (x : HeadSt) : (p.setHead n x).regs = p.regs := rfl
@[simp] theorem Plane.setHead_rd (p : Plane) (n : Nat) (x : HeadSt) (k : Nat) : (p.setHead n x).rd k = p.rd k := rfl
@[simp] theorem Plane.setHead_cfg (p : Plane) (n : Nat) (x : HeadSt) (k : Nat) : (p.setHead n x).cfg k = p.cfg k := rfl
@[simp] theorem Plane.setLoop_id (p : Plane) (n : Nat) (x : LoopSt) : (p.setLoop n x).id = p.id := rfl
@[simp] theorem Plane.setLoop_phase (p : Plane) (n : Nat) (x : LoopSt) : (p.setLoop n x).phase = p.phase := rfl
@[simp] theorem Plane.setLoop_applied (p : Plane) (n : Nat) (x : LoopSt) : (p.setLoop n x).applied = p.applied := rfl
@[simp] theorem Plane.setLoop_cfgQ (p : Plane) (n : Nat) (x : LoopSt) : (p.setLoop n x).cfgQ = p.cfgQ := rfl
@[simp] theorem Plane.setLoop_grps (p : Plane) (n : Nat) (x : LoopSt) : (p.setLoop n x).grps = p.grps := rfl
@[simp] theorem Plane.setLoop_nextGrp (p : Plane) (n : Nat) (x : LoopSt) : (p.setLoop n x).nextGrp = p.nextGrp := rfl
@[simp] theorem Plane.setLoop_paths (p : Plane) (n : Nat) (x : LoopSt) : (p.setLoop n x).paths = p.paths := rfl
@[simp] theorem Plane.setLoop_sess (p : Plane) (n : Nat) (x : LoopSt) : (p.setLoop n x).sess = p.sess := rfl
@[simp] theorem Plane.setLoop_alias_ (p : Plane) (n : Nat) (x : LoopSt) : (p.setLoop n x).alias_ = p.alias_ := rfl
@[simp] theorem Plane.setLoop_dataPath (p : Plane) (n : Nat) (x : LoopSt) : (p.setLoop n x).dataPath = p.dataPath := rfl
@[simp] theorem Plane.setLoop_mpe (p : Plane) (n : Nat) (x : LoopSt) : (p.setLoop n x).mpe = p.mpe := rfl
@[simp] theorem Plane.setLoop_weir (p : Plane) (n : Nat) (x : LoopSt) : (p.setLoop n x).weir = p.weir := rfl
@[simp] theorem Plane.setLoop_points (p : Plane) (n : Nat) (x : LoopSt) : (p.setLoop n x).points = p.points := rfl
@[simp] theorem Plane.setLoop_heads (p : Plane) (n : Nat) (x : LoopSt) : (p.setLoop n x).heads = p.heads := rfl
@[simp] theorem Plane.setLoop_meter (p : Plane) (n : Nat) (x : LoopSt) : (p.setLoop n x).meter = p.meter := rfl
@[simp] theorem Plane.setLoop_acct (p : Plane) (n : Nat) (x : LoopSt) : (p.setLoop n x).acct = p.acct := rfl
@[simp] theorem Plane.setLoop_pulses (p : Plane) (n : Nat) (x : LoopSt) : (p.setLoop n x).pulses = p.pulses := rfl
@[simp] theorem Plane.setLoop_red (p : Plane) (n : Nat) (x : LoopSt) : (p.setLoop n x).red = p.red := rfl
@[simp] theorem Plane.setLoop_tarn (p : Plane) (n : Nat) (x : LoopSt) : (p.setLoop n x).tarn = p.tarn := rfl
@[simp] theorem Plane.setLoop_evr (p : Plane) (n : Nat) (x : LoopSt) : (p.setLoop n x).evr = p.evr := rfl
@[simp] theorem Plane.setLoop_canRx (p : Plane) (n : Nat) (x : LoopSt) : (p.setLoop n x).canRx = p.canRx := rfl
@[simp] theorem Plane.setLoop_scan (p : Plane) (n : Nat) (x : LoopSt) : (p.setLoop n x).scan = p.scan := rfl
@[simp] theorem Plane.setLoop_sections (p : Plane) (n : Nat) (x : LoopSt) : (p.setLoop n x).sections = p.sections := rfl
@[simp] theorem Plane.setLoop_keys (p : Plane) (n : Nat) (x : LoopSt) : (p.setLoop n x).keys = p.keys := rfl
@[simp] theorem Plane.setLoop_crypto (p : Plane) (n : Nat) (x : LoopSt) : (p.setLoop n x).crypto = p.crypto := rfl
@[simp] theorem Plane.setLoop_boot (p : Plane) (n : Nat) (x : LoopSt) : (p.setLoop n x).boot = p.boot := rfl
@[simp] theorem Plane.setLoop_rtc (p : Plane) (n : Nat) (x : LoopSt) : (p.setLoop n x).rtc = p.rtc := rfl
@[simp] theorem Plane.setLoop_mem (p : Plane) (n : Nat) (x : LoopSt) : (p.setLoop n x).mem = p.mem := rfl
@[simp] theorem Plane.setLoop_bkg (p : Plane) (n : Nat) (x : LoopSt) : (p.setLoop n x).bkg = p.bkg := rfl
@[simp] theorem Plane.setLoop_start (p : Plane) (n : Nat) (x : LoopSt) : (p.setLoop n x).start = p.start := rfl
@[simp] theorem Plane.setLoop_regs (p : Plane) (n : Nat) (x : LoopSt) : (p.setLoop n x).regs = p.regs := rfl
@[simp] theorem Plane.setLoop_rd (p : Plane) (n : Nat) (x : LoopSt) (k : Nat) : (p.setLoop n x).rd k = p.rd k := rfl
@[simp] theorem Plane.setLoop_cfg (p : Plane) (n : Nat) (x : LoopSt) (k : Nat) : (p.setLoop n x).cfg k = p.cfg k := rfl
@[simp] theorem Plane.setPoint_id (p : Plane) (n : Nat) (x : PointSt) : (p.setPoint n x).id = p.id := rfl
@[simp] theorem Plane.setPoint_phase (p : Plane) (n : Nat) (x : PointSt) : (p.setPoint n x).phase = p.phase := rfl
@[simp] theorem Plane.setPoint_applied (p : Plane) (n : Nat) (x : PointSt) : (p.setPoint n x).applied = p.applied := rfl
@[simp] theorem Plane.setPoint_cfgQ (p : Plane) (n : Nat) (x : PointSt) : (p.setPoint n x).cfgQ = p.cfgQ := rfl
@[simp] theorem Plane.setPoint_grps (p : Plane) (n : Nat) (x : PointSt) : (p.setPoint n x).grps = p.grps := rfl
@[simp] theorem Plane.setPoint_nextGrp (p : Plane) (n : Nat) (x : PointSt) : (p.setPoint n x).nextGrp = p.nextGrp := rfl
@[simp] theorem Plane.setPoint_paths (p : Plane) (n : Nat) (x : PointSt) : (p.setPoint n x).paths = p.paths := rfl
@[simp] theorem Plane.setPoint_sess (p : Plane) (n : Nat) (x : PointSt) : (p.setPoint n x).sess = p.sess := rfl
@[simp] theorem Plane.setPoint_alias_ (p : Plane) (n : Nat) (x : PointSt) : (p.setPoint n x).alias_ = p.alias_ := rfl
@[simp] theorem Plane.setPoint_dataPath (p : Plane) (n : Nat) (x : PointSt) : (p.setPoint n x).dataPath = p.dataPath := rfl
@[simp] theorem Plane.setPoint_mpe (p : Plane) (n : Nat) (x : PointSt) : (p.setPoint n x).mpe = p.mpe := rfl
@[simp] theorem Plane.setPoint_weir (p : Plane) (n : Nat) (x : PointSt) : (p.setPoint n x).weir = p.weir := rfl
@[simp] theorem Plane.setPoint_heads (p : Plane) (n : Nat) (x : PointSt) : (p.setPoint n x).heads = p.heads := rfl
@[simp] theorem Plane.setPoint_meter (p : Plane) (n : Nat) (x : PointSt) : (p.setPoint n x).meter = p.meter := rfl
@[simp] theorem Plane.setPoint_acct (p : Plane) (n : Nat) (x : PointSt) : (p.setPoint n x).acct = p.acct := rfl
@[simp] theorem Plane.setPoint_pulses (p : Plane) (n : Nat) (x : PointSt) : (p.setPoint n x).pulses = p.pulses := rfl
@[simp] theorem Plane.setPoint_red (p : Plane) (n : Nat) (x : PointSt) : (p.setPoint n x).red = p.red := rfl
@[simp] theorem Plane.setPoint_tarn (p : Plane) (n : Nat) (x : PointSt) : (p.setPoint n x).tarn = p.tarn := rfl
@[simp] theorem Plane.setPoint_evr (p : Plane) (n : Nat) (x : PointSt) : (p.setPoint n x).evr = p.evr := rfl
@[simp] theorem Plane.setPoint_canRx (p : Plane) (n : Nat) (x : PointSt) : (p.setPoint n x).canRx = p.canRx := rfl
@[simp] theorem Plane.setPoint_scan (p : Plane) (n : Nat) (x : PointSt) : (p.setPoint n x).scan = p.scan := rfl
@[simp] theorem Plane.setPoint_loops (p : Plane) (n : Nat) (x : PointSt) : (p.setPoint n x).loops = p.loops := rfl
@[simp] theorem Plane.setPoint_sections (p : Plane) (n : Nat) (x : PointSt) : (p.setPoint n x).sections = p.sections := rfl
@[simp] theorem Plane.setPoint_keys (p : Plane) (n : Nat) (x : PointSt) : (p.setPoint n x).keys = p.keys := rfl
@[simp] theorem Plane.setPoint_crypto (p : Plane) (n : Nat) (x : PointSt) : (p.setPoint n x).crypto = p.crypto := rfl
@[simp] theorem Plane.setPoint_boot (p : Plane) (n : Nat) (x : PointSt) : (p.setPoint n x).boot = p.boot := rfl
@[simp] theorem Plane.setPoint_rtc (p : Plane) (n : Nat) (x : PointSt) : (p.setPoint n x).rtc = p.rtc := rfl
@[simp] theorem Plane.setPoint_mem (p : Plane) (n : Nat) (x : PointSt) : (p.setPoint n x).mem = p.mem := rfl
@[simp] theorem Plane.setPoint_bkg (p : Plane) (n : Nat) (x : PointSt) : (p.setPoint n x).bkg = p.bkg := rfl
@[simp] theorem Plane.setPoint_start (p : Plane) (n : Nat) (x : PointSt) : (p.setPoint n x).start = p.start := rfl
@[simp] theorem Plane.setPoint_regs (p : Plane) (n : Nat) (x : PointSt) : (p.setPoint n x).regs = p.regs := rfl
@[simp] theorem Plane.setPoint_rd (p : Plane) (n : Nat) (x : PointSt) (k : Nat) : (p.setPoint n x).rd k = p.rd k := rfl
@[simp] theorem Plane.setPoint_cfg (p : Plane) (n : Nat) (x : PointSt) (k : Nat) : (p.setPoint n x).cfg k = p.cfg k := rfl
@[simp] theorem Plane.setRx_id (p : Plane) (n : Nat) (x : CanRx) : (p.setRx n x).id = p.id := rfl
@[simp] theorem Plane.setRx_phase (p : Plane) (n : Nat) (x : CanRx) : (p.setRx n x).phase = p.phase := rfl
@[simp] theorem Plane.setRx_applied (p : Plane) (n : Nat) (x : CanRx) : (p.setRx n x).applied = p.applied := rfl
@[simp] theorem Plane.setRx_cfgQ (p : Plane) (n : Nat) (x : CanRx) : (p.setRx n x).cfgQ = p.cfgQ := rfl
@[simp] theorem Plane.setRx_grps (p : Plane) (n : Nat) (x : CanRx) : (p.setRx n x).grps = p.grps := rfl
@[simp] theorem Plane.setRx_nextGrp (p : Plane) (n : Nat) (x : CanRx) : (p.setRx n x).nextGrp = p.nextGrp := rfl
@[simp] theorem Plane.setRx_paths (p : Plane) (n : Nat) (x : CanRx) : (p.setRx n x).paths = p.paths := rfl
@[simp] theorem Plane.setRx_sess (p : Plane) (n : Nat) (x : CanRx) : (p.setRx n x).sess = p.sess := rfl
@[simp] theorem Plane.setRx_alias_ (p : Plane) (n : Nat) (x : CanRx) : (p.setRx n x).alias_ = p.alias_ := rfl
@[simp] theorem Plane.setRx_dataPath (p : Plane) (n : Nat) (x : CanRx) : (p.setRx n x).dataPath = p.dataPath := rfl
@[simp] theorem Plane.setRx_mpe (p : Plane) (n : Nat) (x : CanRx) : (p.setRx n x).mpe = p.mpe := rfl
@[simp] theorem Plane.setRx_weir (p : Plane) (n : Nat) (x : CanRx) : (p.setRx n x).weir = p.weir := rfl
@[simp] theorem Plane.setRx_points (p : Plane) (n : Nat) (x : CanRx) : (p.setRx n x).points = p.points := rfl
@[simp] theorem Plane.setRx_heads (p : Plane) (n : Nat) (x : CanRx) : (p.setRx n x).heads = p.heads := rfl
@[simp] theorem Plane.setRx_meter (p : Plane) (n : Nat) (x : CanRx) : (p.setRx n x).meter = p.meter := rfl
@[simp] theorem Plane.setRx_acct (p : Plane) (n : Nat) (x : CanRx) : (p.setRx n x).acct = p.acct := rfl
@[simp] theorem Plane.setRx_pulses (p : Plane) (n : Nat) (x : CanRx) : (p.setRx n x).pulses = p.pulses := rfl
@[simp] theorem Plane.setRx_red (p : Plane) (n : Nat) (x : CanRx) : (p.setRx n x).red = p.red := rfl
@[simp] theorem Plane.setRx_tarn (p : Plane) (n : Nat) (x : CanRx) : (p.setRx n x).tarn = p.tarn := rfl
@[simp] theorem Plane.setRx_evr (p : Plane) (n : Nat) (x : CanRx) : (p.setRx n x).evr = p.evr := rfl
@[simp] theorem Plane.setRx_scan (p : Plane) (n : Nat) (x : CanRx) : (p.setRx n x).scan = p.scan := rfl
@[simp] theorem Plane.setRx_loops (p : Plane) (n : Nat) (x : CanRx) : (p.setRx n x).loops = p.loops := rfl
@[simp] theorem Plane.setRx_sections (p : Plane) (n : Nat) (x : CanRx) : (p.setRx n x).sections = p.sections := rfl
@[simp] theorem Plane.setRx_keys (p : Plane) (n : Nat) (x : CanRx) : (p.setRx n x).keys = p.keys := rfl
@[simp] theorem Plane.setRx_crypto (p : Plane) (n : Nat) (x : CanRx) : (p.setRx n x).crypto = p.crypto := rfl
@[simp] theorem Plane.setRx_boot (p : Plane) (n : Nat) (x : CanRx) : (p.setRx n x).boot = p.boot := rfl
@[simp] theorem Plane.setRx_rtc (p : Plane) (n : Nat) (x : CanRx) : (p.setRx n x).rtc = p.rtc := rfl
@[simp] theorem Plane.setRx_mem (p : Plane) (n : Nat) (x : CanRx) : (p.setRx n x).mem = p.mem := rfl
@[simp] theorem Plane.setRx_bkg (p : Plane) (n : Nat) (x : CanRx) : (p.setRx n x).bkg = p.bkg := rfl
@[simp] theorem Plane.setRx_start (p : Plane) (n : Nat) (x : CanRx) : (p.setRx n x).start = p.start := rfl
@[simp] theorem Plane.setRx_regs (p : Plane) (n : Nat) (x : CanRx) : (p.setRx n x).regs = p.regs := rfl
@[simp] theorem Plane.setRx_rd (p : Plane) (n : Nat) (x : CanRx) (k : Nat) : (p.setRx n x).rd k = p.rd k := rfl
@[simp] theorem Plane.setRx_cfg (p : Plane) (n : Nat) (x : CanRx) (k : Nat) : (p.setRx n x).cfg k = p.cfg k := rfl
@[simp] theorem Plane.setBasin_id (p : Plane) (n : Nat) (x : BasinSt) : (p.setBasin n x).id = p.id := rfl
@[simp] theorem Plane.setBasin_phase (p : Plane) (n : Nat) (x : BasinSt) : (p.setBasin n x).phase = p.phase := rfl
@[simp] theorem Plane.setBasin_applied (p : Plane) (n : Nat) (x : BasinSt) : (p.setBasin n x).applied = p.applied := rfl
@[simp] theorem Plane.setBasin_cfgQ (p : Plane) (n : Nat) (x : BasinSt) : (p.setBasin n x).cfgQ = p.cfgQ := rfl
@[simp] theorem Plane.setBasin_grps (p : Plane) (n : Nat) (x : BasinSt) : (p.setBasin n x).grps = p.grps := rfl
@[simp] theorem Plane.setBasin_nextGrp (p : Plane) (n : Nat) (x : BasinSt) : (p.setBasin n x).nextGrp = p.nextGrp := rfl
@[simp] theorem Plane.setBasin_paths (p : Plane) (n : Nat) (x : BasinSt) : (p.setBasin n x).paths = p.paths := rfl
@[simp] theorem Plane.setBasin_sess (p : Plane) (n : Nat) (x : BasinSt) : (p.setBasin n x).sess = p.sess := rfl
@[simp] theorem Plane.setBasin_alias_ (p : Plane) (n : Nat) (x : BasinSt) : (p.setBasin n x).alias_ = p.alias_ := rfl
@[simp] theorem Plane.setBasin_dataPath (p : Plane) (n : Nat) (x : BasinSt) : (p.setBasin n x).dataPath = p.dataPath := rfl
@[simp] theorem Plane.setBasin_mpe (p : Plane) (n : Nat) (x : BasinSt) : (p.setBasin n x).mpe = p.mpe := rfl
@[simp] theorem Plane.setBasin_weir (p : Plane) (n : Nat) (x : BasinSt) : (p.setBasin n x).weir = p.weir := rfl
@[simp] theorem Plane.setBasin_points (p : Plane) (n : Nat) (x : BasinSt) : (p.setBasin n x).points = p.points := rfl
@[simp] theorem Plane.setBasin_heads (p : Plane) (n : Nat) (x : BasinSt) : (p.setBasin n x).heads = p.heads := rfl
@[simp] theorem Plane.setBasin_meter (p : Plane) (n : Nat) (x : BasinSt) : (p.setBasin n x).meter = p.meter := rfl
@[simp] theorem Plane.setBasin_acct (p : Plane) (n : Nat) (x : BasinSt) : (p.setBasin n x).acct = p.acct := rfl
@[simp] theorem Plane.setBasin_pulses (p : Plane) (n : Nat) (x : BasinSt) : (p.setBasin n x).pulses = p.pulses := rfl
@[simp] theorem Plane.setBasin_red (p : Plane) (n : Nat) (x : BasinSt) : (p.setBasin n x).red = p.red := rfl
@[simp] theorem Plane.setBasin_tarn (p : Plane) (n : Nat) (x : BasinSt) : (p.setBasin n x).tarn = p.tarn := rfl
@[simp] theorem Plane.setBasin_evr (p : Plane) (n : Nat) (x : BasinSt) : (p.setBasin n x).evr = p.evr := rfl
@[simp] theorem Plane.setBasin_canRx (p : Plane) (n : Nat) (x : BasinSt) : (p.setBasin n x).canRx = p.canRx := rfl
@[simp] theorem Plane.setBasin_scan (p : Plane) (n : Nat) (x : BasinSt) : (p.setBasin n x).scan = p.scan := rfl
@[simp] theorem Plane.setBasin_loops (p : Plane) (n : Nat) (x : BasinSt) : (p.setBasin n x).loops = p.loops := rfl
@[simp] theorem Plane.setBasin_sections (p : Plane) (n : Nat) (x : BasinSt) : (p.setBasin n x).sections = p.sections := rfl
@[simp] theorem Plane.setBasin_keys (p : Plane) (n : Nat) (x : BasinSt) : (p.setBasin n x).keys = p.keys := rfl
@[simp] theorem Plane.setBasin_crypto (p : Plane) (n : Nat) (x : BasinSt) : (p.setBasin n x).crypto = p.crypto := rfl
@[simp] theorem Plane.setBasin_boot (p : Plane) (n : Nat) (x : BasinSt) : (p.setBasin n x).boot = p.boot := rfl
@[simp] theorem Plane.setBasin_rtc (p : Plane) (n : Nat) (x : BasinSt) : (p.setBasin n x).rtc = p.rtc := rfl
@[simp] theorem Plane.setBasin_bkg (p : Plane) (n : Nat) (x : BasinSt) : (p.setBasin n x).bkg = p.bkg := rfl
@[simp] theorem Plane.setBasin_start (p : Plane) (n : Nat) (x : BasinSt) : (p.setBasin n x).start = p.start := rfl
@[simp] theorem Plane.setBasin_regs (p : Plane) (n : Nat) (x : BasinSt) : (p.setBasin n x).regs = p.regs := rfl
@[simp] theorem Plane.setBasin_rd (p : Plane) (n : Nat) (x : BasinSt) (k : Nat) : (p.setBasin n x).rd k = p.rd k := rfl
@[simp] theorem Plane.setBasin_cfg (p : Plane) (n : Nat) (x : BasinSt) (k : Nat) : (p.setBasin n x).cfg k = p.cfg k := rfl
@[simp] theorem Plane.setSession_id (p : Plane) (n : Nat) (x : Session) : (p.setSession n x).id = p.id := rfl
@[simp] theorem Plane.setSession_phase (p : Plane) (n : Nat) (x : Session) : (p.setSession n x).phase = p.phase := rfl
@[simp] theorem Plane.setSession_applied (p : Plane) (n : Nat) (x : Session) : (p.setSession n x).applied = p.applied := rfl
@[simp] theorem Plane.setSession_cfgQ (p : Plane) (n : Nat) (x : Session) : (p.setSession n x).cfgQ = p.cfgQ := rfl
@[simp] theorem Plane.setSession_grps (p : Plane) (n : Nat) (x : Session) : (p.setSession n x).grps = p.grps := rfl
@[simp] theorem Plane.setSession_nextGrp (p : Plane) (n : Nat) (x : Session) : (p.setSession n x).nextGrp = p.nextGrp := rfl
@[simp] theorem Plane.setSession_paths (p : Plane) (n : Nat) (x : Session) : (p.setSession n x).paths = p.paths := rfl
@[simp] theorem Plane.setSession_alias_ (p : Plane) (n : Nat) (x : Session) : (p.setSession n x).alias_ = p.alias_ := rfl
@[simp] theorem Plane.setSession_dataPath (p : Plane) (n : Nat) (x : Session) : (p.setSession n x).dataPath = p.dataPath := rfl
@[simp] theorem Plane.setSession_mpe (p : Plane) (n : Nat) (x : Session) : (p.setSession n x).mpe = p.mpe := rfl
@[simp] theorem Plane.setSession_weir (p : Plane) (n : Nat) (x : Session) : (p.setSession n x).weir = p.weir := rfl
@[simp] theorem Plane.setSession_points (p : Plane) (n : Nat) (x : Session) : (p.setSession n x).points = p.points := rfl
@[simp] theorem Plane.setSession_heads (p : Plane) (n : Nat) (x : Session) : (p.setSession n x).heads = p.heads := rfl
@[simp] theorem Plane.setSession_meter (p : Plane) (n : Nat) (x : Session) : (p.setSession n x).meter = p.meter := rfl
@[simp] theorem Plane.setSession_acct (p : Plane) (n : Nat) (x : Session) : (p.setSession n x).acct = p.acct := rfl
@[simp] theorem Plane.setSession_pulses (p : Plane) (n : Nat) (x : Session) : (p.setSession n x).pulses = p.pulses := rfl
@[simp] theorem Plane.setSession_red (p : Plane) (n : Nat) (x : Session) : (p.setSession n x).red = p.red := rfl
@[simp] theorem Plane.setSession_tarn (p : Plane) (n : Nat) (x : Session) : (p.setSession n x).tarn = p.tarn := rfl
@[simp] theorem Plane.setSession_evr (p : Plane) (n : Nat) (x : Session) : (p.setSession n x).evr = p.evr := rfl
@[simp] theorem Plane.setSession_canRx (p : Plane) (n : Nat) (x : Session) : (p.setSession n x).canRx = p.canRx := rfl
@[simp] theorem Plane.setSession_scan (p : Plane) (n : Nat) (x : Session) : (p.setSession n x).scan = p.scan := rfl
@[simp] theorem Plane.setSession_loops (p : Plane) (n : Nat) (x : Session) : (p.setSession n x).loops = p.loops := rfl
@[simp] theorem Plane.setSession_sections (p : Plane) (n : Nat) (x : Session) : (p.setSession n x).sections = p.sections := rfl
@[simp] theorem Plane.setSession_keys (p : Plane) (n : Nat) (x : Session) : (p.setSession n x).keys = p.keys := rfl
@[simp] theorem Plane.setSession_crypto (p : Plane) (n : Nat) (x : Session) : (p.setSession n x).crypto = p.crypto := rfl
@[simp] theorem Plane.setSession_boot (p : Plane) (n : Nat) (x : Session) : (p.setSession n x).boot = p.boot := rfl
@[simp] theorem Plane.setSession_rtc (p : Plane) (n : Nat) (x : Session) : (p.setSession n x).rtc = p.rtc := rfl
@[simp] theorem Plane.setSession_mem (p : Plane) (n : Nat) (x : Session) : (p.setSession n x).mem = p.mem := rfl
@[simp] theorem Plane.setSession_bkg (p : Plane) (n : Nat) (x : Session) : (p.setSession n x).bkg = p.bkg := rfl
@[simp] theorem Plane.setSession_start (p : Plane) (n : Nat) (x : Session) : (p.setSession n x).start = p.start := rfl
@[simp] theorem Plane.setSession_regs (p : Plane) (n : Nat) (x : Session) : (p.setSession n x).regs = p.regs := rfl
@[simp] theorem Plane.setSession_rd (p : Plane) (n : Nat) (x : Session) (k : Nat) : (p.setSession n x).rd k = p.rd k := rfl
@[simp] theorem Plane.setSession_cfg (p : Plane) (n : Nat) (x : Session) (k : Nat) : (p.setSession n x).cfg k = p.cfg k := rfl
@[simp] theorem Plane.updPath_id (p : Plane) (n : Nat) (f : PathState → PathState) : (p.updPath n f).id = p.id := rfl
@[simp] theorem Plane.updPath_phase (p : Plane) (n : Nat) (f : PathState → PathState) : (p.updPath n f).phase = p.phase := rfl
@[simp] theorem Plane.updPath_applied (p : Plane) (n : Nat) (f : PathState → PathState) : (p.updPath n f).applied = p.applied := rfl
@[simp] theorem Plane.updPath_cfgQ (p : Plane) (n : Nat) (f : PathState → PathState) : (p.updPath n f).cfgQ = p.cfgQ := rfl
@[simp] theorem Plane.updPath_grps (p : Plane) (n : Nat) (f : PathState → PathState) : (p.updPath n f).grps = p.grps := rfl
@[simp] theorem Plane.updPath_nextGrp (p : Plane) (n : Nat) (f : PathState → PathState) : (p.updPath n f).nextGrp = p.nextGrp := rfl
@[simp] theorem Plane.updPath_sess (p : Plane) (n : Nat) (f : PathState → PathState) : (p.updPath n f).sess = p.sess := rfl
@[simp] theorem Plane.updPath_alias_ (p : Plane) (n : Nat) (f : PathState → PathState) : (p.updPath n f).alias_ = p.alias_ := rfl
@[simp] theorem Plane.updPath_dataPath (p : Plane) (n : Nat) (f : PathState → PathState) : (p.updPath n f).dataPath = p.dataPath := rfl
@[simp] theorem Plane.updPath_mpe (p : Plane) (n : Nat) (f : PathState → PathState) : (p.updPath n f).mpe = p.mpe := rfl
@[simp] theorem Plane.updPath_weir (p : Plane) (n : Nat) (f : PathState → PathState) : (p.updPath n f).weir = p.weir := rfl
@[simp] theorem Plane.updPath_points (p : Plane) (n : Nat) (f : PathState → PathState) : (p.updPath n f).points = p.points := rfl
@[simp] theorem Plane.updPath_heads (p : Plane) (n : Nat) (f : PathState → PathState) : (p.updPath n f).heads = p.heads := rfl
@[simp] theorem Plane.updPath_meter (p : Plane) (n : Nat) (f : PathState → PathState) : (p.updPath n f).meter = p.meter := rfl
@[simp] theorem Plane.updPath_acct (p : Plane) (n : Nat) (f : PathState → PathState) : (p.updPath n f).acct = p.acct := rfl
@[simp] theorem Plane.updPath_pulses (p : Plane) (n : Nat) (f : PathState → PathState) : (p.updPath n f).pulses = p.pulses := rfl
@[simp] theorem Plane.updPath_red (p : Plane) (n : Nat) (f : PathState → PathState) : (p.updPath n f).red = p.red := rfl
@[simp] theorem Plane.updPath_tarn (p : Plane) (n : Nat) (f : PathState → PathState) : (p.updPath n f).tarn = p.tarn := rfl
@[simp] theorem Plane.updPath_evr (p : Plane) (n : Nat) (f : PathState → PathState) : (p.updPath n f).evr = p.evr := rfl
@[simp] theorem Plane.updPath_canRx (p : Plane) (n : Nat) (f : PathState → PathState) : (p.updPath n f).canRx = p.canRx := rfl
@[simp] theorem Plane.updPath_scan (p : Plane) (n : Nat) (f : PathState → PathState) : (p.updPath n f).scan = p.scan := rfl
@[simp] theorem Plane.updPath_loops (p : Plane) (n : Nat) (f : PathState → PathState) : (p.updPath n f).loops = p.loops := rfl
@[simp] theorem Plane.updPath_sections (p : Plane) (n : Nat) (f : PathState → PathState) : (p.updPath n f).sections = p.sections := rfl
@[simp] theorem Plane.updPath_keys (p : Plane) (n : Nat) (f : PathState → PathState) : (p.updPath n f).keys = p.keys := rfl
@[simp] theorem Plane.updPath_crypto (p : Plane) (n : Nat) (f : PathState → PathState) : (p.updPath n f).crypto = p.crypto := rfl
@[simp] theorem Plane.updPath_boot (p : Plane) (n : Nat) (f : PathState → PathState) : (p.updPath n f).boot = p.boot := rfl
@[simp] theorem Plane.updPath_rtc (p : Plane) (n : Nat) (f : PathState → PathState) : (p.updPath n f).rtc = p.rtc := rfl
@[simp] theorem Plane.updPath_mem (p : Plane) (n : Nat) (f : PathState → PathState) : (p.updPath n f).mem = p.mem := rfl
@[simp] theorem Plane.updPath_bkg (p : Plane) (n : Nat) (f : PathState → PathState) : (p.updPath n f).bkg = p.bkg := rfl
@[simp] theorem Plane.updPath_start (p : Plane) (n : Nat) (f : PathState → PathState) : (p.updPath n f).start = p.start := rfl
@[simp] theorem Plane.updPath_regs (p : Plane) (n : Nat) (f : PathState → PathState) : (p.updPath n f).regs = p.regs := rfl
@[simp] theorem Plane.updPath_rd (p : Plane) (n : Nat) (f : PathState → PathState) (k : Nat) : (p.updPath n f).rd k = p.rd k := rfl
@[simp] theorem Plane.updPath_cfg (p : Plane) (n : Nat) (f : PathState → PathState) (k : Nat) : (p.updPath n f).cfg k = p.cfg k := rfl
@[simp] theorem Plane.pwr_id (p : Plane) (n a : Nat) (w : Word) : (p.pwr n a w).id = p.id := rfl
@[simp] theorem Plane.pwr_phase (p : Plane) (n a : Nat) (w : Word) : (p.pwr n a w).phase = p.phase := rfl
@[simp] theorem Plane.pwr_applied (p : Plane) (n a : Nat) (w : Word) : (p.pwr n a w).applied = p.applied := rfl
@[simp] theorem Plane.pwr_cfgQ (p : Plane) (n a : Nat) (w : Word) : (p.pwr n a w).cfgQ = p.cfgQ := rfl
@[simp] theorem Plane.pwr_grps (p : Plane) (n a : Nat) (w : Word) : (p.pwr n a w).grps = p.grps := rfl
@[simp] theorem Plane.pwr_nextGrp (p : Plane) (n a : Nat) (w : Word) : (p.pwr n a w).nextGrp = p.nextGrp := rfl
@[simp] theorem Plane.pwr_sess (p : Plane) (n a : Nat) (w : Word) : (p.pwr n a w).sess = p.sess := rfl
@[simp] theorem Plane.pwr_alias_ (p : Plane) (n a : Nat) (w : Word) : (p.pwr n a w).alias_ = p.alias_ := rfl
@[simp] theorem Plane.pwr_dataPath (p : Plane) (n a : Nat) (w : Word) : (p.pwr n a w).dataPath = p.dataPath := rfl
@[simp] theorem Plane.pwr_mpe (p : Plane) (n a : Nat) (w : Word) : (p.pwr n a w).mpe = p.mpe := rfl
@[simp] theorem Plane.pwr_weir (p : Plane) (n a : Nat) (w : Word) : (p.pwr n a w).weir = p.weir := rfl
@[simp] theorem Plane.pwr_points (p : Plane) (n a : Nat) (w : Word) : (p.pwr n a w).points = p.points := rfl
@[simp] theorem Plane.pwr_heads (p : Plane) (n a : Nat) (w : Word) : (p.pwr n a w).heads = p.heads := rfl
@[simp] theorem Plane.pwr_meter (p : Plane) (n a : Nat) (w : Word) : (p.pwr n a w).meter = p.meter := rfl
@[simp] theorem Plane.pwr_acct (p : Plane) (n a : Nat) (w : Word) : (p.pwr n a w).acct = p.acct := rfl
@[simp] theorem Plane.pwr_pulses (p : Plane) (n a : Nat) (w : Word) : (p.pwr n a w).pulses = p.pulses := rfl
@[simp] theorem Plane.pwr_red (p : Plane) (n a : Nat) (w : Word) : (p.pwr n a w).red = p.red := rfl
@[simp] theorem Plane.pwr_tarn (p : Plane) (n a : Nat) (w : Word) : (p.pwr n a w).tarn = p.tarn := rfl
@[simp] theorem Plane.pwr_evr (p : Plane) (n a : Nat) (w : Word) : (p.pwr n a w).evr = p.evr := rfl
@[simp] theorem Plane.pwr_canRx (p : Plane) (n a : Nat) (w : Word) : (p.pwr n a w).canRx = p.canRx := rfl
@[simp] theorem Plane.pwr_scan (p : Plane) (n a : Nat) (w : Word) : (p.pwr n a w).scan = p.scan := rfl
@[simp] theorem Plane.pwr_loops (p : Plane) (n a : Nat) (w : Word) : (p.pwr n a w).loops = p.loops := rfl
@[simp] theorem Plane.pwr_sections (p : Plane) (n a : Nat) (w : Word) : (p.pwr n a w).sections = p.sections := rfl
@[simp] theorem Plane.pwr_keys (p : Plane) (n a : Nat) (w : Word) : (p.pwr n a w).keys = p.keys := rfl
@[simp] theorem Plane.pwr_crypto (p : Plane) (n a : Nat) (w : Word) : (p.pwr n a w).crypto = p.crypto := rfl
@[simp] theorem Plane.pwr_boot (p : Plane) (n a : Nat) (w : Word) : (p.pwr n a w).boot = p.boot := rfl
@[simp] theorem Plane.pwr_rtc (p : Plane) (n a : Nat) (w : Word) : (p.pwr n a w).rtc = p.rtc := rfl
@[simp] theorem Plane.pwr_mem (p : Plane) (n a : Nat) (w : Word) : (p.pwr n a w).mem = p.mem := rfl
@[simp] theorem Plane.pwr_bkg (p : Plane) (n a : Nat) (w : Word) : (p.pwr n a w).bkg = p.bkg := rfl
@[simp] theorem Plane.pwr_start (p : Plane) (n a : Nat) (w : Word) : (p.pwr n a w).start = p.start := rfl
@[simp] theorem Plane.pwr_regs (p : Plane) (n a : Nat) (w : Word) : (p.pwr n a w).regs = p.regs := rfl
@[simp] theorem Plane.pwr_rd (p : Plane) (n a : Nat) (w : Word) (k : Nat) : (p.pwr n a w).rd k = p.rd k := rfl
@[simp] theorem Plane.pwr_cfg (p : Plane) (n a : Nat) (w : Word) (k : Nat) : (p.pwr n a w).cfg k = p.cfg k := rfl

end Sys2Proof.Machine
end

