-- ==== Sys2Proof/Laws/Tab.lean ====
section
/-!
SUPPORT. The laws of sparse tables: a read after a write, that writes keep the canonical form, and with them the register laws of a plane
and the canonical form of the addressed memories.
-/
namespace Sys2Proof.Machine

variable {α : Type}

theorem Tab.get_ins_same (d : Nat → α) (t : Tab α) (k : Nat) (v : α) : Tab.get d (Tab.ins t k v) k = v := by
  induction t with
  | nil => simp [Tab.ins, Tab.get]
  | cons e r ih =>
    obtain ⟨j, w⟩ := e
    simp only [Tab.ins]
    by_cases h1 : j < k
    · simp [h1, Tab.get, Nat.ne_of_lt h1, ih]
    · by_cases h2 : j = k <;> simp [h1, h2, Tab.get]

theorem Tab.get_ins_ne (d : Nat → α) (t : Tab α) (k j : Nat) (v : α) (h : j ≠ k) : Tab.get d (Tab.ins t k v) j = Tab.get d t j := by
  induction t with
  | nil => simp [Tab.ins, Tab.get, Ne.symm h]
  | cons e r ih =>
    obtain ⟨i, w⟩ := e
    simp only [Tab.ins]
    by_cases h1 : i < k
    · simp only [h1, if_true, Tab.get, ih]
    · by_cases h2 : i = k
      · subst h2; simp [Tab.get, Ne.symm h]
      · simp [h1, h2, Tab.get, Ne.symm h]

theorem Tab.get_del_same (d : Nat → α) (t : Tab α) (k : Nat) : Tab.get d (Tab.del t k) k = d k := by
  unfold Tab.del
  induction t with
  | nil => rfl
  | cons e r ih =>
    obtain ⟨j, w⟩ := e
    by_cases h : j = k
    · simpa [h, List.filter] using ih
    · simpa [h, List.filter, Tab.get] using ih

theorem Tab.get_del_ne (d : Nat → α) (t : Tab α) (k j : Nat) (h : j ≠ k) : Tab.get d (Tab.del t k) j = Tab.get d t j := by
  unfold Tab.del
  induction t with
  | nil => rfl
  | cons e r ih =>
    obtain ⟨i, w⟩ := e
    by_cases h1 : i = k
    · have : i ≠ j := by omega
      simpa [h1, List.filter, Tab.get, show k ≠ j from by omega] using ih
    · by_cases h2 : i = j
      · simp [h2, List.filter, Tab.get, h]
      · simpa [h1, List.filter, Tab.get, h2] using ih

variable [DecidableEq α]

/-- A read after a write of the same key gives the value written. -/
@[simp] theorem Tab.get_put_same (d : Nat → α) (t : Tab α) (k : Nat) (v : α) : Tab.get d (Tab.put d t k v) k = v := by
  unfold Tab.put
  split
  · next h => rw [Tab.get_del_same, h]
  · exact Tab.get_ins_same d t k v

/-- A write leaves every other key alone. -/
theorem Tab.get_put_ne (d : Nat → α) (t : Tab α) (k j : Nat) (v : α) (h : j ≠ k) : Tab.get d (Tab.put d t k v) j = Tab.get d t j := by
  unfold Tab.put
  split
  · exact Tab.get_del_ne d t k j h
  · exact Tab.get_ins_ne d t k j v h

/-- Both at once. -/
theorem Tab.get_put (d : Nat → α) (t : Tab α) (k j : Nat) (v : α) :
    Tab.get d (Tab.put d t k v) j = if j = k then v else Tab.get d t j := by
  split
  · next h => subst h; simp
  · next h => exact Tab.get_put_ne d t k j v h

/-! ### The canonical form -/

omit [DecidableEq α] in
theorem Tab.sorted_weaken {i j : Nat} (t : Tab α) (h : i ≤ j) (hs : Tab.sorted (some j) t = true) : Tab.sorted (some i) t = true := by
  cases t with
  | nil => rfl
  | cons e r =>
    obtain ⟨k, w⟩ := e
    simp only [Tab.sorted, Bool.and_eq_true, decide_eq_true_eq] at *
    exact ⟨by omega, hs.2⟩

omit [DecidableEq α] in
theorem Tab.sorted_tail (lo : Option Nat) (e : Nat × α) (r : Tab α) (h : Tab.sorted lo (e :: r) = true) : Tab.sorted (some e.1) r = true := by
  cases lo with
  | none => simpa [Tab.sorted] using h
  | some i =>
    simp only [Tab.sorted, Bool.and_eq_true] at h
    exact h.2

omit [DecidableEq α] in
theorem Tab.sorted_filter (q : Nat × α → Bool) (t : Tab α) (lo : Option Nat) (h : Tab.sorted lo t = true) :
    Tab.sorted lo (t.filter q) = true := by
  induction t generalizing lo with
  | nil => cases lo <;> rfl
  | cons e r ih =>
    have ht := Tab.sorted_tail lo e r h
    by_cases hq : q e = true
    · rw [List.filter_cons_of_pos hq]
      cases lo with
      | none => simpa [Tab.sorted] using ih _ ht
      | some i =>
        simp only [Tab.sorted, Bool.and_eq_true, decide_eq_true_eq] at h ⊢
        exact ⟨h.1, ih _ ht⟩
    · rw [List.filter_cons_of_neg hq]
      cases lo with
      | none =>
        cases hr : r.filter q with
        | nil => rfl
        | cons x y =>
          have := ih _ ht
          rw [hr] at this
          simpa [Tab.sorted] using Tab.sorted_tail _ _ _ this
      | some i =>
        simp only [Tab.sorted, Bool.and_eq_true, decide_eq_true_eq] at h
        exact Tab.sorted_weaken _ (Nat.le_of_lt h.1) (ih _ ht)

omit [DecidableEq α] in
theorem Tab.sorted_ins (t : Tab α) (k : Nat) (v : α) (lo : Option Nat) (h : Tab.sorted lo t = true) (hk : ∀ i, lo = some i → i < k) :
    Tab.sorted lo (Tab.ins t k v) = true := by
  induction t generalizing lo with
  | nil =>
    cases lo with
    | none => rfl
    | some i => simp [Tab.ins, Tab.sorted, hk i rfl]
  | cons e r ih =>
    obtain ⟨j, w⟩ := e
    have ht := Tab.sorted_tail lo (j, w) r h
    have head : ∀ (t : Tab α), Tab.sorted (some j) t = true → Tab.sorted lo ((j, w) :: t) = true := by
      intro t' h'
      cases lo with
      | none => simpa [Tab.sorted] using h'
      | some i =>
        simp only [Tab.sorted, Bool.and_eq_true, decide_eq_true_eq] at h ⊢
        exact ⟨h.1, h'⟩
    have front : ∀ (t : Tab α), Tab.sorted (some k) t = true → Tab.sorted lo ((k, v) :: t) = true := by
      intro t' h'
      cases lo with
      | none => simpa [Tab.sorted] using h'
      | some i => simpa [Tab.sorted] using ⟨hk i rfl, h'⟩
    simp only [Tab.ins]
    split
    · next h1 => exact head _ (ih _ ht (by intro i hi; cases hi; exact h1))
    · next h1 =>
      split
      · next h2 => subst h2; exact front _ ht
      · next h2 =>
        refine front _ ?_
        simp only [Tab.sorted, Bool.and_eq_true, decide_eq_true_eq]
        exact ⟨by omega, ht⟩

omit [DecidableEq α] in
theorem Tab.mem_ins (t : Tab α) (k : Nat) (v : α) (e : Nat × α) (h : e ∈ Tab.ins t k v) : e = (k, v) ∨ e ∈ t := by
  induction t with
  | nil => simpa [Tab.ins] using h
  | cons x r ih =>
    obtain ⟨j, w⟩ := x
    simp only [Tab.ins] at h
    split at h
    · simp only [List.mem_cons] at h ⊢
      rcases h with h | h
      · exact .inr (.inl h)
      · rcases ih h with h | h
        · exact .inl h
        · exact .inr (.inr h)
    · split at h
      · simp only [List.mem_cons] at h ⊢
        exact h.imp_right .inr
      · simpa only [List.mem_cons] using h

/-- Writing keeps the canonical form. -/
theorem Tab.put_wf (d : Nat → α) (t : Tab α) (k : Nat) (v : α) (h : Tab.wf d t = true) : Tab.wf d (Tab.put d t k v) = true := by
  simp only [Tab.wf, Bool.and_eq_true, List.all_eq_true, decide_eq_true_eq] at h ⊢
  unfold Tab.put
  split
  · exact ⟨Tab.sorted_filter _ _ _ h.1, fun e he => h.2 e ((List.mem_filter.mp he).1)⟩
  · next hv =>
    refine ⟨Tab.sorted_ins _ _ _ _ h.1 (by intro i hi; cases hi), fun e he => ?_⟩
    rcases Tab.mem_ins _ _ _ _ he with rfl | he
    · exact hv
    · exact h.2 e he

/-- Dropping entries keeps the canonical form. -/
theorem Tab.filter_wf (d : Nat → α) (t : Tab α) (q : Nat × α → Bool) (h : Tab.wf d t = true) : Tab.wf d (t.filter q) = true := by
  simp only [Tab.wf, Bool.and_eq_true, List.all_eq_true, decide_eq_true_eq] at h ⊢
  exact ⟨Tab.sorted_filter _ _ _ h.1, fun e he => h.2 e ((List.mem_filter.mp he).1)⟩

theorem Tab.putAll_wf (d : Nat → α) (l : List (Nat × α)) (t : Tab α) (h : Tab.wf d t = true) : Tab.wf d (Tab.putAll d t l) = true := by
  unfold Tab.putAll
  induction l generalizing t with
  | nil => exact h
  | cons e r ih => exact ih _ (Tab.put_wf _ _ _ _ h)

/-! ### Registers of a plane -/

/-- A register reads as the word last stored. -/
@[simp] theorem Plane.rd_wr_same (p : Plane) (a : Nat) (w : Word) : (p.wr a w).rd a = w := by simp [Plane.rd, Plane.wr]

/-- Storing a word leaves every other register alone. -/
theorem Plane.rd_wr_ne (p : Plane) (a b : Nat) (w : Word) (h : b ≠ a) : (p.wr a w).rd b = p.rd b := by
  simp [Plane.rd, Plane.wr, Tab.get_put_ne _ _ _ _ _ h]

theorem Plane.rd_wr (p : Plane) (a b : Nat) (w : Word) : (p.wr a w).rd b = if b = a then w else p.rd b := by
  split
  · next h => subst h; simp
  · next h => exact Plane.rd_wr_ne p a b w h

theorem Plane.rd_wrF_ne (p : Plane) (a hi lo v b : Nat) (h : b ≠ a) : (p.wrF a hi lo v).rd b = p.rd b := Plane.rd_wr_ne _ _ _ _ h
@[simp] theorem Plane.rd_wrF_same (p : Plane) (a hi lo v : Nat) : (p.wrF a hi lo v).rd a = setFld (p.rd a) hi lo v := Plane.rd_wr_same _ _ _
theorem Plane.rd_bump_ne (p : Plane) (a hi lo b : Nat) (h : b ≠ a) : (p.bump a hi lo).rd b = p.rd b := Plane.rd_wr_ne _ _ _ _ h
theorem Plane.rd_evt_ne (p : Plane) (a n b : Nat) (h : b ≠ a) : (p.evt a n).rd b = p.rd b := Plane.rd_wr_ne _ _ _ _ h

/-- Slots, heads, loops and Basins read as last set. -/
@[simp] theorem Plane.slot_setSlot (p : Plane) (n : Nat) (x : Slot) : (p.setSlot n x).slot n = x := by simp [Plane.slot, Plane.setSlot]
theorem Plane.slot_setSlot_ne (p : Plane) (n m : Nat) (x : Slot) (h : m ≠ n) : (p.setSlot n x).slot m = p.slot m := by
  simp [Plane.slot, Plane.setSlot, Tab.get_put_ne _ _ _ _ _ h]
@[simp] theorem Plane.head_setHead (p : Plane) (n : Nat) (x : HeadSt) : (p.setHead n x).head n = x := by simp [Plane.head, Plane.setHead]
theorem Plane.head_setHead_ne (p : Plane) (n m : Nat) (x : HeadSt) (h : m ≠ n) : (p.setHead n x).head m = p.head m := by
  simp [Plane.head, Plane.setHead, Tab.get_put_ne _ _ _ _ _ h]
@[simp] theorem Plane.loop_setLoop (p : Plane) (n : Nat) (x : LoopSt) : (p.setLoop n x).loop n = x := by simp [Plane.loop, Plane.setLoop]
theorem Plane.loop_setLoop_ne (p : Plane) (n m : Nat) (x : LoopSt) (h : m ≠ n) : (p.setLoop n x).loop m = p.loop m := by
  simp [Plane.loop, Plane.setLoop, Tab.get_put_ne _ _ _ _ _ h]
@[simp] theorem Plane.basin_setBasin (p : Plane) (n : Nat) (x : BasinSt) : (p.setBasin n x).basin n = x := by
  simp [Plane.basin, Plane.setBasin]
theorem Plane.basin_setBasin_ne (p : Plane) (n m : Nat) (x : BasinSt) (h : m ≠ n) : (p.setBasin n x).basin m = p.basin m := by
  simp [Plane.basin, Plane.setBasin, Tab.get_put_ne _ _ _ _ _ h]
@[simp] theorem Plane.path_updPath (p : Plane) (k : Nat) (f : PathState → PathState) : (p.updPath k f).path k = f (p.path k) := by
  simp [Plane.path, Plane.updPath]
@[simp] theorem Plane.session_setSession (p : Plane) (k : Nat) (x : Session) : (p.setSession k x).session k = x := by
  simp [Plane.session, Plane.setSession]
@[simp] theorem FieldSide.port_setPort (f : FieldSide) (n : Nat) (x : PortSt) : (f.setPort n x).port n = x := by
  simp [FieldSide.port, FieldSide.setPort]
theorem FieldSide.port_setPort_ne (f : FieldSide) (n m : Nat) (x : PortSt) (h : m ≠ n) : (f.setPort n x).port m = f.port m := by
  simp [FieldSide.port, FieldSide.setPort, Tab.get_put_ne _ _ _ _ _ h]

end Sys2Proof.Machine
end

