-- ==== Sys2Proof/Laws/Bus.lean ====
section
/-!
SUPPORT. What a permitted access over the Host Register Port comes to: one lemma for each kind of register, and for the accesses that
the Shore check or the start-up phase turns away.
-/
namespace Sys2Proof.Machine

/-- With no new group released nothing crosses the sync link. -/
theorem State.sendGroups_same (s : State) (i : PlaneId) (old : List CfgGroup) (h : (s.plane i).grps = old) : s.sendGroups old i = s := by
  unfold State.sendGroups
  have e : (s.plane i).grps.filter
      (fun g => g.rel.isSome && !g.acked && !(old.any fun o => o.id == g.id && o.rel.isSome)) = [] := by
    rw [List.filter_eq_nil_iff]
    intro g hg
    rw [h] at hg
    simp only [Bool.and_eq_true, Bool.not_eq_true', not_and, Bool.not_eq_false]
    intro h1
    rw [List.any_eq_true]
    exact ⟨g, hg, by simp [h1.1]⟩
  rw [e]; rfl

/-- Sending groups across leaves the planes alone. -/
@[simp] theorem State.sendGroups_plane (s : State) (old : List CfgGroup) (i j : PlaneId) : (s.sendGroups old i).plane j = s.plane j := by
  unfold State.sendGroups
  generalize (s.plane i).grps.filter _ = l
  induction l generalizing s with
  | nil => rfl
  | cons x r ih => rw [List.foldl_cons, ih]; simp

/-- A permitted write of a register word. -/
theorem State.hrpWrite_reg (s : State) (i : PlaneId) (tag : Tag) (be : BitVec 4) (a : Nat) (data : Word) (r : RegAt)
    (h : s.writes i tag be a data) (hbe : be ≠ 0) (hpage : (blockOf (a / 0x1000)).isSome = true) (hsys : a / 0x1000 < 0x100)
    (he : (s.plane i).entryPlace 0 a = none) (hr : regAt a = some r) (hs : a % 0x1000 ≠ 0x1C) :
    s.hrpWrite i tag be a data = s.writeReg i 0 tag false be a r data := by
  obtain ⟨h1, h2⟩ := h
  have hm : mapped (a / 0x1000) = true := by simp [mapped, hpage]
  have h3 : ¬(0x140 ≤ a / 0x1000 ∧ isWindow (a / 0x1000) = true) := by rintro ⟨h, _⟩; omega
  have h4 : a / 0x1000 ≠ 0x1F0 := by omega
  simp only [State.hrpWrite, State.writeWord, Plane.answers, h1, h2, he, hr]
  simp only [hm, h3, h4, hbe, hs]
  simp

/-- A write that the Shore check forbids writes nothing; it is a violation (R302, R308). -/
theorem State.hrpWrite_forbidden (s : State) (i : PlaneId) (tag : Tag) (be : BitVec 4) (a : Nat) (data : Word)
    (h : (s.plane i).phase = .ready) (hf : s.forbids i 0 tag true (beMask be) data a ≠ 0) :
    s.hrpWrite i tag be a data = s.upd i fun p => p.violate 0 tag true (s.forbids i 0 tag true (beMask be) data a) a s.now := by
  simp only [State.hrpWrite, State.writeWord, Plane.answers, h]
  simp [hf]

/-- A plane that has not recalled answers no access (R422). -/
theorem State.hrpWrite_silent (s : State) (i : PlaneId) (tag : Tag) (be : BitVec 4) (a : Nat) (data : Word)
    (h : (s.plane i).phase = .unpowered ∨ (s.plane i).phase = .starting) : s.hrpWrite i tag be a data = s := by
  rcases h with h | h <;> simp [State.hrpWrite, State.writeWord, Plane.answers, h]

/-- A register of a local page, kept once for the plane. -/
theorem State.writeReg_local (s : State) (i : PlaneId) (tag : Tag) (be : BitVec 4) (a : Nat) (row : RegDef) (idx : Nat) (data : Word)
    (h1 : beMask be &&& data &&& w32 row.w1c = 0) (h2 : beMask be &&& w32 (row.rw ||| row.rws ||| row.wo) ≠ 0)
    (h3 : row.perPath = false) (h4 : mirroredPage (a / 0x1000) = false) (h5 : a ≠ Reg.RED_AUTH) (h6 : row.wide = false) :
    s.writeReg i 0 tag false be a ⟨row, idx, false⟩ data =
      s.writeLocal i 0 tag be a row (beMask be &&& w32 (row.rw ||| row.rws ||| row.wo)) data := by
  unfold State.writeReg
  simp only [h1, if_true]
  rw [if_neg h2]
  simp [h3, h4, h5, h6]

/-- A register kept per path. -/
theorem State.writeReg_path (s : State) (i : PlaneId) (tag : Tag) (be : BitVec 4) (a : Nat) (row : RegDef) (idx : Nat) (data : Word)
    (h1 : beMask be &&& data &&& w32 row.w1c = 0) (h2 : beMask be &&& w32 (row.rw ||| row.rws ||| row.wo) ≠ 0)
    (h3 : row.perPath = true) (h6 : row.wide = false) :
    s.writeReg i 0 tag false be a ⟨row, idx, false⟩ data =
      s.writePath i 0 tag a row (beMask be &&& w32 (row.rw ||| row.rws ||| row.wo)) data := by
  unfold State.writeReg
  simp only [h1, if_true]
  rw [if_neg h2]
  simp [h3, h6]

/-- A configuration register of a mirrored page. -/
theorem State.writeReg_cfg (s : State) (i : PlaneId) (tag : Tag) (be : BitVec 4) (a : Nat) (r : RegAt) (data : Word)
    (h1 : beMask be &&& data &&& w32 r.row.w1c = 0) (h2 : beMask be &&& w32 (r.row.rw ||| r.row.rws ||| r.row.wo) ≠ 0)
    (h3 : r.row.perPath = false) (h4 : mirroredPage (a / 0x1000) = true) :
    s.writeReg i 0 tag false be a r data =
      (s.upd i fun p => p.cfgWrite 0 false a r (beMask be &&& w32 (r.row.rw ||| r.row.rws ||| r.row.wo)) data s.now).sendGroups
        (s.plane i).grps i := by
  unfold State.writeReg
  simp only [h1, if_true]
  rw [if_neg h2]
  simp [h3, h4]

/-- A permitted write of a register that a plane keeps once on a local page. -/
theorem State.hrpWrite_local (s : State) (i : PlaneId) (tag : Tag) (be : BitVec 4) (a : Nat) (data : Word) (row : RegDef) (idx : Nat)
    (h : s.writes i tag be a data) (hbe : be ≠ 0) (hpage : (blockOf (a / 0x1000)).isSome = true) (hsys : a / 0x1000 < 0x100)
    (he : (s.plane i).entryPlace 0 a = none) (hr : regAt a = some ⟨row, idx, false⟩) (hs : a % 0x1000 ≠ 0x1C)
    (h1 : beMask be &&& data &&& w32 row.w1c = 0) (h2 : beMask be &&& w32 (row.rw ||| row.rws ||| row.wo) ≠ 0)
    (h3 : row.perPath = false) (h4 : mirroredPage (a / 0x1000) = false) (h5 : a ≠ Reg.RED_AUTH) (h6 : row.wide = false) :
    s.hrpWrite i tag be a data = s.writeLocal i 0 tag be a row (beMask be &&& w32 (row.rw ||| row.rws ||| row.wo)) data := by
  rw [State.hrpWrite_reg s i tag be a data _ h hbe hpage hsys he hr hs, State.writeReg_local s i tag be a row idx data h1 h2 h3 h4 h5 h6]

/-- A permitted write of a register kept per path. -/
theorem State.hrpWrite_path (s : State) (i : PlaneId) (tag : Tag) (be : BitVec 4) (a : Nat) (data : Word) (row : RegDef) (idx : Nat)
    (h : s.writes i tag be a data) (hbe : be ≠ 0) (hpage : (blockOf (a / 0x1000)).isSome = true) (hsys : a / 0x1000 < 0x100)
    (he : (s.plane i).entryPlace 0 a = none) (hr : regAt a = some ⟨row, idx, false⟩) (hs : a % 0x1000 ≠ 0x1C)
    (h1 : beMask be &&& data &&& w32 row.w1c = 0) (h2 : beMask be &&& w32 (row.rw ||| row.rws ||| row.wo) ≠ 0)
    (h3 : row.perPath = true) (h6 : row.wide = false) :
    s.hrpWrite i tag be a data = s.writePath i 0 tag a row (beMask be &&& w32 (row.rw ||| row.rws ||| row.wo)) data := by
  rw [State.hrpWrite_reg s i tag be a data _ h hbe hpage hsys he hr hs, State.writeReg_path s i tag be a row idx data h1 h2 h3 h6]

/-- A permitted write of a configuration register of a mirrored page. -/
theorem State.hrpWrite_cfg (s : State) (i : PlaneId) (tag : Tag) (be : BitVec 4) (a : Nat) (data : Word) (r : RegAt)
    (h : s.writes i tag be a data) (hbe : be ≠ 0) (hpage : (blockOf (a / 0x1000)).isSome = true) (hsys : a / 0x1000 < 0x100)
    (he : (s.plane i).entryPlace 0 a = none) (hr : regAt a = some r) (hs : a % 0x1000 ≠ 0x1C)
    (h1 : beMask be &&& data &&& w32 r.row.w1c = 0) (h2 : beMask be &&& w32 (r.row.rw ||| r.row.rws ||| r.row.wo) ≠ 0)
    (h3 : r.row.perPath = false) (h4 : mirroredPage (a / 0x1000) = true) :
    s.hrpWrite i tag be a data = (s.upd i fun p =>
      p.cfgWrite 0 false a r (beMask be &&& w32 (r.row.rw ||| r.row.rws ||| r.row.wo)) data s.now).sendGroups (s.plane i).grps i := by
  rw [State.hrpWrite_reg s i tag be a data r h hbe hpage hsys he hr hs, State.writeReg_cfg s i tag be a r data h1 h2 h3 h4]

/-- A running maximum is at least its start and every member. -/
theorem foldl_max_le (l : List Nat) (m : Nat) : m ≤ l.foldl (fun m n => max m (n + 1)) m ∧ ∀ n ∈ l, n < l.foldl (fun m n => max m (n + 1)) m := by
  induction l generalizing m with
  | nil => simp
  | cons x r ih =>
    obtain ⟨h1, h2⟩ := ih (max m (x + 1))
    rw [List.foldl_cons]
    refine ⟨by omega, fun n hn => ?_⟩
    rcases List.mem_cons.mp hn with rfl | h
    · omega
    · exact h2 n h

theorem Plane.freshGrp_grps (p : Plane) : ∀ g ∈ p.grps, g.id < p.freshGrp := fun _ hg =>
  (foldl_max_le _ _).2 _ (List.mem_append_left _ (List.mem_map_of_mem hg))

theorem Plane.freshGrp_cfgQ (p : Plane) : ∀ q ∈ p.cfgQ, q.grp < p.freshGrp := fun _ hq =>
  (foldl_max_le _ _).2 _ (List.mem_append_right _ (List.mem_map_of_mem hq))

/-- Showing a word of the image changes that word alone. -/
@[simp] theorem Plane.showCfg_cfgQ (p : Plane) (a : Nat) : (p.showCfg a).cfgQ = p.cfgQ := rfl
@[simp] theorem Plane.showCfg_grps (p : Plane) (a : Nat) : (p.showCfg a).grps = p.grps := rfl
@[simp] theorem Plane.showCfg_applied (p : Plane) (a : Nat) : (p.showCfg a).applied = p.applied := rfl

/-- A group whose writes swap no loop is released as it stands. -/
theorem Plane.judgeSwaps_none (p : Plane) (id : Nat) (h : ∀ q ∈ p.cfgQ, q.grp = id → q.addr < 0x460000) : p.judgeSwaps id = p := by
  unfold Plane.judgeSwaps
  have gen : ∀ (l : List QWrite) (x : List QWrite × List Nat × Nat), (∀ q ∈ l, q.grp = id → q.addr < 0x460000) →
      l.foldl (fun (x : List QWrite × List Nat × Nat) q =>
        let l := (q.addr - 0x460000) / 4
        if q.grp ≠ id ∨ q.addr < 0x460000 ∨ !bit (q.mask &&& q.data) 0 then (x.1 ++ [q], x.2)
        else if x.2.1.contains l || p.swapPending l id then (x.1 ++ [{ q with mask := q.mask &&& ~~~3#32 }], x.2.1, x.2.2 + 1)
        else (x.1 ++ [q], l :: x.2.1, x.2.2)) x = (x.1 ++ l, x.2) := by
    intro l
    induction l with
    | nil => intro x _; simp
    | cons q r ih =>
      intro x hl
      rw [List.foldl_cons, if_pos, ih _ fun q hq => hl q (List.mem_cons_of_mem _ hq)]
      · simp
      · by_cases e : q.grp = id
        · exact Or.inr (Or.inl (hl q (List.mem_cons_self ..) e))
        · exact Or.inl e
  rw [gen _ _ h]
  rfl

/-- What a configuration write queues on the active plane with HOLD clear and room in the queue: one released group of its own. -/
theorem Plane.queueCfg_released (p : Plane) (a : Nat) (m d : Word) (now : Nat) (h : p.rdF Reg.SYS_CFG_CTRL 0 0 = 0)
    (hl : p.cfgQ.length < 1024) (ha : a < 0x460000) :
    let q := (p.queueCfg 0 false [(a, m, d)] now).1
    q.cfgQ = p.cfgQ ++ [{ addr := a, mask := m, data := d, grp := p.freshGrp }] ∧
    q.grps = p.grps ++ [{ id := p.freshGrp, rel := some (halfOf now) }] ∧ q.applied = p.applied ∧ q.mpe = p.mpe ∧
    q.regs = (if cfgMask a = 0 then p.regs
      else Tab.put regDefault p.regs a (merge (cfgMask a) (p.rd a) (merge (m &&& cfgMask a) (p.image a) d))) := by
  have hroom : ¬ 1024 < p.cfgQ.length + 1 := by omega
  have hg := p.freshGrp_grps
  have hq := p.freshGrp_cfgQ
  intro q
  let p1 : Plane := { p with grps := p.grps ++ [{ id := p.freshGrp, held := none }], nextGrp := p.freshGrp + 1,
                             cfgQ := p.cfgQ ++ [{ addr := a, mask := m, data := d, grp := p.freshGrp }] }
  let p2 : Plane := if cfgMask a = 0 then p1 else p1.showCfg a
  have e1 : q = p2.releaseGroup p.freshGrp now := by
    simp [q, Plane.queueCfg, hroom, Plane.gathers, h, Plane.openGroup, p2, p1]
  have c2 : p2.cfgQ = p1.cfgQ := by simp only [p2]; split <;> rfl
  have g2 : p2.grps = p1.grps := by simp only [p2]; split <;> rfl
  have a2 : p2.applied = p.applied := by simp only [p2]; split <;> rfl
  have m2 : p2.mpe = p.mpe := by simp only [p2]; split <;> rfl
  have f : p2.grps.find? (fun g => g.id == p.freshGrp) = some { id := p.freshGrp, held := none } := by
    rw [g2]
    simp only [p1, List.find?_append]
    rw [List.find?_eq_none.mpr (fun g hx => by have := hg g hx; simp; omega)]
    simp
  have anyq : (p2.cfgQ.any fun q => q.grp == p.freshGrp) = true := by rw [c2]; simp [p1]
  have js : p2.judgeSwaps p.freshGrp = p2 := by
    apply Plane.judgeSwaps_none
    intro x hx hxg
    rw [c2] at hx
    rcases List.mem_append.mp hx with hx | hx
    · have := hq x hx; omega
    · simp at hx; subst hx; exact ha
  have e2 : q = (if p2.authChanges p.freshGrp then p2.updWeir fun w => { w with modePending := true } else p2).updGrp p.freshGrp
      fun g => { g with held := none, rel := some (halfOf now) } := by
    rw [e1]; unfold Plane.releaseGroup
    rw [f]; simp only [anyq, js]; simp
  have gm : (p1.grps.map fun g => if g.id = p.freshGrp then { g with held := none, rel := some (halfOf now) } else g) =
      p.grps ++ [{ id := p.freshGrp, rel := some (halfOf now) }] := by
    simp only [p1, List.map_append]
    congr 1
    · refine (List.map_congr_left (g := fun g => g) fun g hx => ?_).trans (List.map_id' _)
      have := hg g hx
      rw [if_neg (by omega)]
    · simp
  rw [e2]
  have key : ∀ x : Plane, x.cfgQ = p2.cfgQ → x.grps = p2.grps → x.applied = p2.applied → x.mpe = p2.mpe → x.regs = p2.regs →
      let y := x.updGrp p.freshGrp fun g => { g with held := none, rel := some (halfOf now) }
      y.cfgQ = p1.cfgQ ∧ y.grps = p.grps ++ [{ id := p.freshGrp, rel := some (halfOf now) }] ∧ y.applied = p.applied ∧ y.mpe = p.mpe ∧
        y.regs = p2.regs := by
    intro x h1 h2 h3 h4 h5
    refine ⟨h1.trans c2, ?_, h3.trans a2, h4.trans m2, h5⟩
    show x.grps.map _ = _
    rw [h2, g2]; exact gm
  have r2 : p2.regs = (if cfgMask a = 0 then p.regs
      else Tab.put regDefault p.regs a (merge (cfgMask a) (p.rd a) (merge (m &&& cfgMask a) (p.image a) d))) := by
    simp only [p2]; split
    · rfl
    · show Tab.put regDefault p.regs a (merge (cfgMask a) (p.rd a) (p1.image a)) = _
      have : p1.image a = merge (m &&& cfgMask a) (p.image a) d := by
        simp only [Plane.image, p1, List.foldl_append, List.foldl_cons, List.foldl_nil]
        simp; rfl
      rw [this]
  rw [← r2]
  split
  · exact key _ rfl rfl rfl rfl rfl
  · exact key _ rfl rfl rfl rfl rfl

end Sys2Proof.Machine
end

