-- ==== Sys2Proof/Laws/Memory.lean ====
section
/-!
SUPPORT. What the operations on the addressed memories do: a Basin's word reads as last written, every other word stays, and every
operation on the Basins' words and on Tarn's pages keeps the canonical form.
-/
namespace Sys2Proof.Machine

/-! ### The canonical form, by its two parts -/

theorem Memory.wf_words (p : Plane) (h : Memory.wf p = true) : Tab.wf (fun _ => (0 : BitVec 64)) p.mem.words = true :=
  (Bool.and_eq_true _ _ ▸ h).1
theorem Memory.wf_sram (p : Plane) (h : Memory.wf p = true) : Tab.wf (fun _ => PageVal.zero) p.tarn.sram = true :=
  (Bool.and_eq_true _ _ ▸ h).2
theorem Memory.wf_mk (p : Plane) (h1 : Tab.wf (fun _ => (0 : BitVec 64)) p.mem.words = true)
    (h2 : Tab.wf (fun _ => PageVal.zero) p.tarn.sram = true) : Memory.wf p = true := by rw [Memory.wf, h1, h2]; rfl
/-- It depends on the Basins' words and Tarn's pages alone. -/
theorem Memory.wf_congr (p q : Plane) (h1 : q.mem.words = p.mem.words) (h2 : q.tarn.sram = p.tarn.sram) (h : Memory.wf p = true) :
    Memory.wf q = true :=
  Memory.wf_mk q (h1 ▸ Memory.wf_words p h) (h2 ▸ Memory.wf_sram p h)

theorem Memory.wf_ite (c : Prop) [Decidable c] (p q : Plane) (hp : Memory.wf p = true) (hq : Memory.wf q = true) :
    Memory.wf (if c then p else q) = true := by split <;> assumption

theorem Memory.wf_foldl {β : Type} (f : Plane → β → Plane) (hf : ∀ q r, Memory.wf q = true → Memory.wf (f q r) = true) (l : List β) (p : Plane)
    (h : Memory.wf p = true) : Memory.wf (l.foldl f p) = true := by
  induction l generalizing p with
  | nil => exact h
  | cons r l ih => exact ih _ (hf p r h)

/-! ### Tarn's pages -/

@[simp] theorem TarnSt.writeSlot_sram (t : TarnSt) (n sseq : Nat) (v : PageVal) : (t.writeSlot n sseq v).sram = t.sram := rfl
@[simp] theorem TarnSt.request_sram (t : TarnSt) (l : List Nat) : (t.request l).sram = t.sram := rfl

theorem TarnSt.writeSlots_sram (l : List (Nat × PageVal)) (sseq : Nat) (t : TarnSt) :
    (l.foldl (fun (t : TarnSt) (e : Nat × PageVal) => t.writeSlot e.1 sseq e.2) t).sram = t.sram := by
  induction l generalizing t with
  | nil => rfl
  | cons e r ih => exact ih _

/-- A commit writes its pages and no other. -/
theorem TarnSt.commit_sram (t : TarnSt) (pages : List (Nat × PageVal)) :
    (t.commit pages).sram = Tab.putAll (fun _ => PageVal.zero) t.sram pages := by
  unfold TarnSt.commit
  cases h : t.run with
  | none => rfl
  | some r => simp only [TarnSt.writeSlots_sram]

theorem TarnSt.commitStore_sram (t : TarnSt) (pages : List (Nat × PageVal)) :
    (t.commitStore pages).sram = Tab.putAll (fun _ => PageVal.zero) t.sram pages := TarnSt.commit_sram t pages

theorem TarnSt.commit_wf (t : TarnSt) (pages : List (Nat × PageVal)) (h : Tab.wf (fun _ => PageVal.zero) t.sram = true) :
    Tab.wf (fun _ => PageVal.zero) (t.commit pages).sram = true := by
  rw [TarnSt.commit_sram]; exact Tab.putAll_wf _ _ _ h

theorem TarnSt.commitStore_wf (t : TarnSt) (pages : List (Nat × PageVal)) (h : Tab.wf (fun _ => PageVal.zero) t.sram = true) :
    Tab.wf (fun _ => PageVal.zero) (t.commitStore pages).sram = true := TarnSt.commit_wf t pages h

/-- A page outside a committed group reads as before. -/
theorem TarnSt.page_commit_ne (t : TarnSt) (m n : Nat) (v : PageVal) (h : m ≠ n) : (t.commit [(n, v)]).page m = t.page m := by
  rw [TarnSt.page, TarnSt.commit_sram]; exact Tab.get_put_ne _ _ _ _ _ h
theorem TarnSt.page_commit (t : TarnSt) (n : Nat) (v : PageVal) : (t.commit [(n, v)]).page n = v := by
  rw [TarnSt.page, TarnSt.commit_sram]; exact Tab.get_put_same _ _ _ _

/-- A power cut changes no page of the SRAM itself. -/
theorem TarnSt.cut_sram (t : TarnSt) : t.cut.sram = t.sram := by
  unfold TarnSt.cut
  split
  · rfl
  · split <;> rfl

/-- What a recall leaves in the SRAM is in canonical form. -/
theorem TarnSt.recall_wf (t : TarnSt) : Tab.wf (fun _ => PageVal.zero) t.recall.1 = true := by
  unfold TarnSt.recall
  generalize lastComplete t.journal = last
  suffices h : ∀ (l : Tab (ShadowSlot × ShadowSlot)) (m : Tab PageVal), Tab.wf (fun _ => PageVal.zero) m = true →
      Tab.wf (fun _ => PageVal.zero) (l.foldl (fun m e => match recallSlot last e.2 with
        | some x => Tab.put (fun _ => PageVal.zero) m e.1 x.val
        | none => m) m) = true from h _ _ rfl
  intro l
  induction l with
  | nil => exact fun _ h => h
  | cons e r ih =>
    intro m h
    refine ih _ ?_
    cases k : recallSlot last e.2 with
    | none => simpa only [k] using h
    | some x => simpa only [k] using Tab.put_wf _ _ _ _ h

/-! ### The recorder commits its pages -/

theorem Plane.flush_mem (p : Plane) : p.flush.mem = p.mem := by
  unfold Plane.flush
  dsimp only
  split <;> rfl

theorem Plane.flush_wf (p : Plane) (h : Memory.wf p = true) : Memory.wf p.flush = true := by
  refine Memory.wf_mk _ (Plane.flush_mem p ▸ Memory.wf_words p h) ?_
  unfold Plane.flush
  dsimp only
  split <;> exact TarnSt.commitStore_wf _ _ (Memory.wf_sram p h)

theorem Plane.stageRaw_keeps (p : Plane) (type : Nat) (tag : Tag) (sev : Nat) (priv : Bool) (body : List Byte) :
    (p.stageRaw type tag sev priv body).mem = p.mem ∧ (p.stageRaw type tag sev priv body).tarn = p.tarn := by
  unfold Plane.stageRaw
  dsimp only
  split <;> exact ⟨rfl, rfl⟩

theorem Plane.stageRaw_wf (p : Plane) (type : Nat) (tag : Tag) (sev : Nat) (priv : Bool) (body : List Byte) (h : Memory.wf p = true) :
    Memory.wf (p.stageRaw type tag sev priv body) = true := by
  have k := Plane.stageRaw_keeps p type tag sev priv body
  exact Memory.wf_congr p _ (by rw [k.1]) (by rw [k.2]) h

theorem Plane.stage_mem (p : Plane) (type : Nat) (tag : Tag) (sev : Nat) (body : List Byte) (priv : Bool) :
    (p.stage type tag sev body priv).mem = p.mem := by
  unfold Plane.stage
  dsimp only
  generalize 20 + (body.length + 3) / 4 * 4 + (if p.evr.lost = 0 then 0 else 24) = need
  split
  · rfl
  · split <;> split <;> simp only [Plane.flush_mem, (Plane.stageRaw_keeps _ _ _ _ _ _).1]

/-- Staging a record keeps the memories' form, a flush that it brings about included. -/
theorem Plane.stage_wf (p : Plane) (type : Nat) (tag : Tag) (sev : Nat) (body : List Byte) (priv : Bool) (h : Memory.wf p = true) :
    Memory.wf (p.stage type tag sev body priv) = true := by
  unfold Plane.stage
  dsimp only
  generalize 20 + (body.length + 3) / 4 * 4 + (if p.evr.lost = 0 then 0 else 24) = need
  have fin (q : Plane) (hq : Memory.wf q = true) : Memory.wf (if (q.stageRaw type tag sev priv body).evr.staging ≥ 196608
      then (q.stageRaw type tag sev priv body).flush else q.stageRaw type tag sev priv body) = true := by
    have k := Plane.stageRaw_wf q type tag sev priv body hq
    split
    · exact Plane.flush_wf _ k
    · exact k
  split
  · exact Memory.wf_congr p _ rfl rfl h
  · split
    · exact fin p h
    · exact fin _ (Memory.wf_congr _ _ rfl rfl (Plane.stageRaw_wf p 0x05 0 2 false (leBytes 4 p.evr.lost) h))

/-- Raising a fault flag keeps the memories' form. -/
theorem Plane.raise_wf (p : Plane) (reg n now : Nat) (h : Memory.wf p = true) : Memory.wf (p.raise reg n now) = true := by
  unfold Plane.raise
  generalize (if reg = 0 then Reg.FAULT_PLANE_FLT else if reg = 1 then Reg.FAULT_FIELD_FLT else Reg.FAULT_WARN) = a
  dsimp only
  split
  · exact h
  · have k := Plane.stage_wf ((((p.wrF a n n 1).evt Reg.FAULT_EVT (8 + reg)).bump Reg.FAULT_FLT_CNT 15 0).wr64 Reg.FAULT_LAST_AT now) 0x60 0
      (if reg = 2 then 2 else 3) ([BitVec.ofNat 8 reg, BitVec.ofNat 8 n, 0, 0] ++ leBytes 8 now) false (Memory.wf_congr p _ rfl rfl h)
    revert k
    generalize Plane.stage _ 0x60 _ _ _ _ = q
    intro k
    split
    · split
      · exact Plane.flush_wf _ (Memory.wf_congr q _ rfl rfl k)
      · exact Memory.wf_congr q _ rfl rfl k
    · split
      · exact Plane.flush_wf q k
      · exact k

/-! ### The Basins' words -/

theorem Plane.basinZero_wf (p : Plane) (b : Nat) (h : Memory.wf p = true) : Memory.wf (p.basinZero b) = true :=
  Memory.wf_mk _ (Tab.filter_wf _ _ _ (Memory.wf_words p h)) (Memory.wf_sram p h)
theorem Plane.setBasin_wf (p : Plane) (b : Nat) (x : BasinSt) (h : Memory.wf p = true) : Memory.wf (p.setBasin b x) = true :=
  Memory.wf_congr p _ rfl rfl h

theorem Plane.settleBasin_wf (p : Plane) (b : Nat) (h : Memory.wf p = true) : Memory.wf (p.settleBasin b) = true := by
  unfold Plane.settleBasin
  dsimp only
  split
  · exact h
  · split
    · exact Plane.setBasin_wf _ _ _ (Plane.basinZero_wf p b h)
    · split <;> exact Plane.setBasin_wf _ _ _ h

theorem Plane.settleBasins_wf (p : Plane) (h : Memory.wf p = true) : Memory.wf p.settleBasins = true := by
  exact Memory.wf_foldl _ Plane.settleBasin_wf _ p h

theorem Plane.clearTick_wf (p : Plane) (h : Memory.wf p = true) : Memory.wf p.clearTick = true := Memory.wf_congr p _ rfl rfl h

theorem Plane.bCfgWrite_wf (p : Plane) (path : Nat) (mask data : Word) (h : Memory.wf p = true) : Memory.wf (p.bCfgWrite path mask data) = true := by
  unfold Plane.bCfgWrite
  dsimp only
  have err (q : Plane) (hq : Memory.wf q = true) : Memory.wf (q.err Reg.MEM_PAGE) = true := Memory.wf_congr q _ rfl rfl hq
  have evt (q : Plane) (hq : Memory.wf q = true) : Memory.wf (q.evt Reg.MEM_EVT 12) = true := Memory.wf_congr q _ rfl rfl hq
  have held := Memory.wf_ite ((p.red.role == .active || p.red.role == .standby) = true ∧ bit mask 24 = true) _ p (err p h) h
  have moved (c : Prop) [Decidable c] := Memory.wf_ite c _ _ held (evt _ held)
  refine Memory.wf_ite _ _ _ (err p h) (Plane.settleBasin_wf _ _ (Plane.setBasin_wf _ _ _ (Memory.wf_ite _ _ _ (Plane.basinZero_wf _ _ (moved _)) (moved _))))

@[simp] theorem Plane.memErr_mem (p : Plane) (b w kind : Nat) : (p.memErr b w kind).mem = p.mem := Plane.wr_mem _ _ _
@[simp] theorem Plane.memErr_tarn (p : Plane) (b w kind : Nat) : (p.memErr b w kind).tarn = p.tarn := Plane.wr_tarn _ _ _
@[simp] theorem Plane.memCe_mem (p : Plane) (b w : Nat) : (p.memCe b w).mem = p.mem := by simp only [Plane.memCe, Plane.memErr_mem, Plane.evt_mem, Plane.bump_mem]
@[simp] theorem Plane.memCe_tarn (p : Plane) (b w : Nat) : (p.memCe b w).tarn = p.tarn := by
  simp only [Plane.memCe, Plane.memErr_tarn, Plane.evt_tarn, Plane.bump_tarn]
@[simp] theorem Plane.basinAnswer_words (p : Plane) (m : Nat) (a : BasinAnswer) : (p.basinAnswer m a).mem.words = p.mem.words := rfl
@[simp] theorem Plane.basinAnswer_tarn (p : Plane) (m : Nat) (a : BasinAnswer) : (p.basinAnswer m a).tarn = p.tarn := rfl
@[simp] theorem Plane.conflict_words (p : Plane) (b m : Nat) : (p.conflict b m).mem.words = p.mem.words := by
  unfold Plane.conflict; split <;> rfl
@[simp] theorem Plane.conflict_tarn (p : Plane) (b m : Nat) : (p.conflict b m).tarn = p.tarn := by
  unfold Plane.conflict; split <;> rfl

theorem Plane.basinAnswer_wf (p : Plane) (m : Nat) (a : BasinAnswer) (h : Memory.wf p = true) : Memory.wf (p.basinAnswer m a) = true :=
  Memory.wf_congr p _ rfl rfl h
theorem Plane.memCe_wf (p : Plane) (b w : Nat) (h : Memory.wf p = true) : Memory.wf (p.memCe b w) = true :=
  Memory.wf_congr p _ (congrArg MemSt.words (Plane.memCe_mem p b w)) (congrArg TarnSt.sram (Plane.memCe_tarn p b w)) h

theorem Plane.memUe_wf (p : Plane) (b w source m : Nat) (h : Memory.wf p = true) : Memory.wf (p.memUe b w source m) = true := by
  have k : Memory.wf (((p.bump Reg.MEM_UE_CNT 15 0).evt Reg.MEM_EVT 9).memErr b w 2) = true :=
    Memory.wf_congr p _ (by simp only [Plane.memErr_mem, Plane.evt_mem, Plane.bump_mem]) (by simp only [Plane.memErr_tarn, Plane.evt_tarn, Plane.bump_tarn]) h
  exact Plane.stage_wf _ _ _ _ _ _ k

theorem Plane.basinServe_wf (p : Plane) (b : Nat) (r : BasinReq) (h : Memory.wf p = true) : Memory.wf (p.basinServe b r) = true := by
  unfold Plane.basinServe
  refine Memory.wf_ite _ _ _ (Memory.wf_mk _ (Tab.put_wf _ _ _ _ (Memory.wf_words p h)) (Memory.wf_sram p h)) (Memory.wf_ite _ _ _ ?_ (Memory.wf_ite _ _ _ ?_ ?_))
  · exact Plane.basinAnswer_wf p _ _ h
  · exact Plane.basinAnswer_wf _ _ _ (Plane.memCe_wf p _ _ h)
  · exact Plane.basinAnswer_wf _ _ _ (Plane.memUe_wf p _ _ _ _ h)

theorem Plane.basinLose_wf (p : Plane) (b : Nat) (served r : BasinReq) (h : Memory.wf p = true) : Memory.wf (p.basinLose b served r) = true := by
  have k : Memory.wf (p.conflict b r.master) = true :=
    Memory.wf_congr p _ (Plane.conflict_words p b _) (congrArg TarnSt.sram (Plane.conflict_tarn p b _)) h
  unfold Plane.basinLose
  refine Memory.wf_ite _ _ _ (Plane.basinAnswer_wf _ _ _ (Memory.wf_congr _ _ ?_ ?_ k)) (Plane.basinAnswer_wf _ _ _ k)
  · simp only [Plane.memErr_mem, Plane.evt_mem, Plane.bump_mem]
  · simp only [Plane.memErr_tarn, Plane.evt_tarn, Plane.bump_tarn]

theorem Plane.basinRefuse_wf (p : Plane) (m : Nat) (h : Memory.wf p = true) : Memory.wf (p.basinRefuse m) = true := Memory.wf_congr p _ rfl rfl h

/-- A cycle of a Basin keeps the memories' form. -/
theorem Plane.basinCycle_wf (p : Plane) (b : Nat) (reqs : List BasinReq) (h : Memory.wf p = true) : Memory.wf (p.basinCycle b reqs) = true := by
  unfold Plane.basinCycle
  generalize p.basin b = x
  dsimp only
  cases basinWinner x reqs with
  | none => exact Memory.wf_foldl _ (fun q r hq => Memory.wf_ite _ _ _ (Plane.basinRefuse_wf q _ hq) hq) _ _ (Memory.wf_congr p _ rfl rfl h)
  | some v =>
    exact Memory.wf_foldl _ (fun q r hq => Memory.wf_ite _ _ _ (Plane.basinRefuse_wf q _ hq)
      (Memory.wf_ite _ _ _ (Plane.basinServe_wf q b r hq) (Plane.basinLose_wf q b v r hq))) _ _ (Memory.wf_congr p _ rfl rfl h)

/-- A served write stores its word, and every other word reads as before. -/
theorem Plane.word_basinServe (p : Plane) (b : Nat) (r : BasinReq) (c w : Nat) (hr : r.write = true) :
    (p.basinServe b r).word c w = if basinKey c w = basinKey b (r.word % basinWords b) then r.data else p.word c w := by
  simp only [Plane.basinServe, hr, if_true, Plane.word]
  exact Tab.get_put _ _ _ _ _

/-- Places of different words differ. -/
theorem basinKey_inj (b c v w : Nat) (hv : v < 131072) (hw : w < 131072) (h : basinKey b v = basinKey c w) : b = c ∧ v = w := by
  unfold basinKey at h; omega

/-- A cleared Basin's words read 0; another's stay. -/
theorem Plane.word_basinZero (p : Plane) (b c w : Nat) (hw : w < 131072) :
    (p.basinZero b).word c w = if c = b then 0 else p.word c w := by
  unfold Plane.word Plane.basinZero
  dsimp only
  have hk : basinKey c w / 131072 = c := by unfold basinKey; omega
  induction p.mem.words with
  | nil => simp [Tab.get]
  | cons e r ih =>
    obtain ⟨k, v⟩ := e
    by_cases h : k / 131072 = b
    · rw [List.filter_cons_of_neg (by simp [h]), ih]
      split
      · rfl
      · next hc =>
        rw [Tab.get, if_neg]
        intro e
        exact hc (hk.symm.trans (e ▸ h))
    · rw [List.filter_cons_of_pos (by simp [h]), Tab.get, Tab.get, ih]
      by_cases e : k = basinKey c w
      · have : c ≠ b := fun x => h (by rw [e, hk, x])
        simp [e, this]
      · simp [e]

end Sys2Proof.Machine
end

