-- ==== Sys2Proof/WellFormed.lean ====
section
/-!
DEFINITION. Which commands are well formed: operands of variable length and numbers that the types do not bound keep to what the spec
lays out. The meanings are total; an ill-formed command is one that nothing outside can send.
-/
namespace Sys2Proof

/-- Stamps and other 64-bit counts. -/
def isStamp (n : Nat) : Bool := decide (n < 2 ^ 64)

/-- A measured cycle: the period and frequency of a running mains (R69), within 32 bits. -/
def CycleMeas.wf (m : CycleMeas) : Bool := decide (0 < m.period) && decide (m.period < 2 ^ 32) && decide (m.freq < 2 ^ 32)

/-- The number of data bytes that a length code stands for, in a classic frame and in an FD frame. -/
def dlcLen (fdf : Bool) (dlc : Nat) : Nat :=
  if dlc ≤ 8 then dlc else if !fdf then 8 else [12, 16, 20, 24, 32, 48, 64].getD (dlc - 9) 64

/-- A CAN frame carries as many bytes as its length code says; an FD frame is no remote frame (R285, R292). -/
def CanFrame.wf (f : CanFrame) : Bool :=
  decide (f.data.length = if f.rtr then 0 else dlcLen f.fdf f.dlc) && !(f.fdf && f.rtr) && (f.fdf || !(f.brs || f.esi))

/-- A Weir decision as it crosses the sync link: a 32-byte record (R94) and a 32-bit CMD_SEQ. -/
def Decision.wf (d : Decision) : Bool :=
  decide (d.record.length = 32) && decide (d.seq < 2 ^ 32) && isStamp d.launch && d.recovery.all isStamp

/-- A Moarno request's words (R66): 32-bit header fields and as many data words as the request carries. -/
def requestWf (words addr seq : Nat) : Bool := decide (words < 2 ^ 32) && decide (addr < 2 ^ 32) && decide (seq < 2 ^ 32)

/-- A Basin request names a word of the largest Basin (R398). -/
def BasinReq.wf (r : BasinReq) : Bool := decide (r.word < 131072)

/-- A Launch Fabric block is 64 bytes (R119), an input payload 40 bytes. -/
def blockWf (b : List Byte) : Bool := decide (b.length = 64)
def payloadWf (b : List Byte) : Bool := decide (b.length = 40)

/-- A frame as a port or uplink receives it is a length that a receiver can count. Frames that are too short or too long are commands
too: they are received and dropped with their cause (R270). -/
def frameWf (b : List Byte) : Bool := decide (b.length ≤ 65535)

/-- Well-formed commands. A command with no clause of its own is well formed by its operand types alone. -/
def Instr.wf : Instr → Bool
  | .moarnoRead _ _ head addr seq => requestWf head.words addr seq && !(decide (2 ≤ head.op.toNat) && decide (head.op.toNat ≤ 4))
  | .moarnoWrite _ _ _ words addr seq data => requestWf words addr seq && decide (data.length = words)
  | .moarnoCmdSubmit _ _ words addr seq data => requestWf words addr seq && decide (data.length = words)
  | .moarnoEvtWait _ _ words addr seq data => requestWf words addr seq && decide (data.length = words)
  | .cycleStart m => m.wf
  | .steerDiff period => decide (0 < period) && decide (period < 2 ^ 32)
  | .decisionSync d => d.wf
  | .lfabBlockReceive _ _ _ bytes => blockWf bytes
  | .lfabNakReceive _ _ lseq => decide (lseq < 65536)
  | .launchRelease _ _ slot seq => decide (slot < 256) && decide (seq < 2 ^ 32)
  | .transmissionStart path slot seq => decide (path < 0x308) && decide (slot < 256) && decide (seq < 2 ^ 32)
  | .meterSample payload => payloadWf payload
  | .digestReceive _ _ stamp _ => isStamp stamp
  | .digestTimeout _ _ stamp => isStamp stamp
  | .renew block => blockWf block
  | .claim block => blockWf block
  | .release block => blockWf block
  | .leaseReport payload stamp => payloadWf payload && isStamp stamp
  | .scanComplete _ ns => decide (ns < 2 ^ 32)
  | .frameReceive _ frame _ _ => frameWf frame
  | .canFrameReceive _ msg => msg.wf
  | .fieldSupplyTotalOverload ma => decide (ma.length = 4)
  | .basinAccess _ _ reqs => reqs.all BasinReq.wf
  | .scrub _ _ found => found.all fun e => decide (e.1 < 131072)
  | .planeStart _ m => decide (m.holdup < 65536) && decide (m.readyMs < 65536)
  | .holdupTest _ ms => decide (ms < 65536)
  | .abortSync _ _ stamp => isStamp stamp
  | .registerWrite .. | .rcRead .. | .wideLowRead .. | .wideHighWrite .. | .seal .. | .softRst .. | .windowEntryWrite ..
  | .hold .. | .holdClear .. | .discard .. | .configGroupApply | .configGroupSync .. | .sysAliasUpdate
  | .evtWaitAnswer .. | .moarnoSessionOpen .. | .moarnoSessionClose .. | .halfCycleBoundary | .lockAcquired ..
  | .l1Disturbed | .l1Good | .relockDone | .supplyLossWarning | .mainsOk | .ptpMessageReceive .. | .announceReceiptTimeout
  | .cycleAnnouncementSend | .cycleAnnouncementReceive .. | .adopt | .adoptWaitExpiry .. | .realign .. | .realigned
  | .cmdSubmit .. | .weirDecide .. | .launchSend .. | .linkDown .. | .inject .. | .allowanceExpiry .. | .doneClear ..
  | .abort .. | .abortReport .. | .portSignatureFound .. | .detectionRetry .. | .classMeasured .. | .signatureRecheck ..
  | .powerUpRegulation .. | .inrush .. | .mpsLost .. | .overload .. | .faultRetry .. | .pseFault .. | .cellFault ..
  | .rideThroughEnd .. | .shed | .wakeLaunch | .meterChannelFault .. | .calibrationCheck .. | .intervalClose ..
  | .pulseStart .. | .pulseEnd .. | .selfCheckResult .. | .join .. | .resyncCaughtUp .. | .resyncFail .. | .resyncRetry ..
  | .syncHeartbeat .. | .syncDown | .renewSend .. | .leaseExpiry .. | .guardExpiry | .heartbeatLoss | .overlapMax
  | .startClaim .. | .drillArm .. | .drillCancel .. | .drill | .scanLoad | .checkDone .. | .startWarm | .startCold | .stop
  | .scanBoundary .. | .scanImageSubmit .. | .go .. | .chgItemWrite .. | .loopSample .. | .loopRecordWrite ..
  | .loopSectionWrite .. | .swap .. | .clear .. | .rearm .. | .portLinkChange .. | .uplinkLinkChange .. | .moduleChange ..
  | .fdbAgeExpiry .. | .pauseReceive .. | .pauseExpiry .. | .wakeFilterWrite .. | .mgmtFrame .. | .canArbitrationStart ..
  | .canAttemptEnd .. | .rxRelease .. | .recover .. | .canRecovered .. | .fieldSupplyOvercurrent .. | .fieldSupplyRetry ..
  | .generate .. | .derive .. | .import_ .. | .keyVerify .. | .commit .. | .keyDiscard .. | .invalidate .. | .keyOpDone ..
  | .keyEraseDone .. | .zeroAll .. | .reenrol .. | .entropyFail .. | .wellspringHealthCheck .. | .hash .. | .hmac ..
  | .sign .. | .verify .. | .encrypt .. | .decrypt .. | .random .. | .quote .. | .statement .. | .devcert ..
  | .cryptoOpDone .. | .imgStart .. | .imgData .. | .finish .. | .imgAbort .. | .imgVerifyDone .. | .imgTimeout ..
  | .peer .. | .activate .. | .confirm .. | .advance .. | .trialFail .. | .entropyRecovered .. | .tarnStore ..
  | .storeStart .. | .stored .. | .unlock .. | .set_ .. | .relock .. | .winWrite .. | .hCommit .. | .hDiscard .. | .flush ..
  | .chainSeal .. | .first .. | .firstCirc .. | .next .. | .seek .. | .recordLoadDone .. | .appNote .. | .subsecRead ..
  | .writeGo .. | .shift .. | .rtcSecondBoundary .. | .crystalStop .. | .arm .. | .disarm .. | .periodicWakeFire ..
  | .pwronRequestEnd .. | .crystalRestart .. | .bCfgWrite .. | .basinClearDone .. | .regionTest .. | .leakageCheck ..
  | .telemetry .. | .runNow .. | .bkgDeferred .. | .modulePowerOn .. | .delayedClaim .. | .planeRestart ..
  | .moduleRestartWarm .. | .moduleRestartCold .. | .moduleRestartDisable | .moduleReset | .watchdog .. | .supplyMonitorFail ..
  | .supercapStop .. | .mainsReturnRestart | .faultRaised .. | .faultCleared .. | .autoRestart .. | .relayTest ..
  | .relayTestEnd .. | .syncLinkUp | .linkUp .. | .dynamicStateArrival .. | .errorFrame .. | .integration .. => true

end Sys2Proof
end

