-- ==== Sys2Proof/Tests/Slice0.lean ====
section
/-!
SUPPORT. Tests of the model's own: the well-formedness smoke, and for every statement with hypotheses a witness that meets them. Every
clause of a statement has its states here, and expected numbers come from the spec.
-/
namespace Sys2Proof.Tests
-- One theorem at a time: each asks the kernel for an evaluation.
set_option Elab.async false
open Sys2Proof Sys2Proof.Machine

/-! ### States -/

/-- Both planes run; A holds the lease and B is the standby in step. -/
def base : State :=
  let p (x : Plane) (ro : Role) : Plane := { x with phase := .ready, dataPath := true, red := { x.red with role := ro, syncUp := true } }
  let fs := State.reset.fs
  { State.reset with now := 8192, a := p State.reset.a .active, b := p State.reset.b .standby, fs := { fs with au := { fs.au with holder := some .a, expiry := 20000 } } }

def onA (f : Plane → Plane) (s : State := base) : State := s.upd .a f
def onB (f : Plane → Plane) (s : State := base) : State := s.upd .b f
def both (f : Plane → Plane) (s : State := base) : State := onB f (onA f s)
def onField (f : FieldSide → FieldSide) (s : State := base) : State := s.field f
def onRed (f : RedSt → RedSt) (p : Plane) : Plane := p.updRed f
def onAu (f : AuthUnit → AuthUnit) (s : State := base) : State := s.updAu f
def offLine (p : Plane) : Plane := p.updRed fun r => { r with role := .offline }
/-- True time at `n` seconds. -/
def atSec (n : Nat) (p : Plane) : Plane := p.updMpe fun m => { m with tt16 := 16 * n * 10 ^ 9 }
def port (n : Nat) (st : PortState) (f : PortSt → PortSt := id) (s : State := base) : State :=
  onField (fun x => x.setPort n (f { x.port n with st := st })) s

/-! ### Well-formedness -/

/-- Every check of Instr.wf refuses a command that breaks it. -/
theorem test_wf_refuses :
    [Instr.moarnoRead .a 0 { words := 2 ^ 32 } 0 0, .moarnoRead .a 0 { op := 2, words := 1 } 0 0, .moarnoWrite .a 0 false 2 0 0 [0], .moarnoCmdSubmit .a 0 8 0 0 [], .moarnoEvtWait .a 0 4 0 0 [],
      .cycleStart { period := 0, cross := 0, freq := 0, ptp := 0 }, .steerDiff 0,
      .decisionSync { scan := none, slot := 0, seq := 0, launch := 0, recovery := none, tag := 0, record := [], copy := [] },
      .lfabBlockReceive .a true 0 [], .lfabNakReceive .a 0 65536, .launchRelease .a false 256 0, .transmissionStart 0x308 0 0, .meterSample [],
      .digestReceive .a 0 (2 ^ 64) 0, .digestTimeout .a 0 (2 ^ 64), .renew [], .claim [], .release [], .leaseReport [] 0, .scanComplete .a (2 ^ 32),
      .canFrameReceive 0 { ident := 0, ide := false, fdf := false, brs := false, esi := false, rtr := false, dlc := 8, data := [] },
      .fieldSupplyTotalOverload [], .basinAccess .a 0 [{ master := 0, word := 131072, write := false, data := 0, ecc := 0 }],
      .scrub .a 0 [(131072, false)], .planeStart .a { kat := true, copy0 := none, copy1 := none, fwBad := 0, march := [], holdup := 65536, readyMs := 0 },
      .holdupTest .a 65536, .abortSync 0 0 (2 ^ 64)].all (fun c => !c.wf) = true := by decide +kernel

/-- A frame longer than a receiver counts is refused. -/
theorem test_wf_frame : (Instr.frameReceive 0 (List.replicate 65536 0) true []).wf = false := by
  rw [Instr.wf, frameWf, List.length_replicate]; rfl

/-- The longest CAN frame and the shortest are well formed. -/
theorem test_wf_can : (Instr.canFrameReceive 7 { ident := 0, ide := true, fdf := true, brs := true, esi := true, rtr := false, dlc := 15, data := List.replicate 64 0 }).wf ∧
    (Instr.canFrameReceive 7 { ident := 0, ide := false, fdf := false, brs := false, esi := false, rtr := true, dlc := 8, data := [] }).wf := by decide +kernel

/-! ### Witnesses: the step, the register model (chapter 2) -/

theorem witness_StepRunsFrontOfQueue :
    ({ base with pending := [.syncDown, .shed] } : State).pending = Instr.syncDown :: [Instr.shed] ∧ base.pending = [] := ⟨rfl, rfl⟩

theorem witness_StepKeepsAuthoritySound : State.reset.Inv ∧ (onAu fun u => { u with old := some .b }).Inv ∧
    step State.reset = .next State.reset.tick := by
  refine ⟨?_, ?_, rfl⟩ <;> (intro i h; cases h <;> rfl)

/-- Page 0x4F is the last unmapped page below the windows, 0x3FF the last of all; 0xFFC is no register of page 0, and 0x142800 lies behind a window's end. -/
theorem witness_UnmappedAccessesCountAndUnlistedOffsetsDoNot : base.a.phase = .ready ∧
    (∀ a ∈ [0x4F000, 0x3FFFFC], mapped (a / 0x1000) = false ∧ base.forbids .a 0 0 false 0xFFFFFFFF#32 0 a = 0 ∧ base.forbids .a 0 0 true (beMask 0xF) 0 a = 0) ∧
    (((blockOf (0xFFC / 0x1000)).isSome ∧ regAt 0xFFC = none) ∧ base.forbids .a 0 0 false 0xFFFFFFFF#32 0 0xFFC = 0 ∧ base.forbids .a 0 0 true (beMask 0xF) 0 0xFFC = 0) ∧
    isWindow (0x142800 / 0x1000) = true ∧ (10240 ≤ (0x142800 - 0x140000) % 0x3000) ∧ base.forbids .a 0 0 false 0xFFFFFFFF#32 0 0x142800 = 0 := by
  decide +kernel

def holding : State := onA fun p => { p.wrF Reg.SYS_CFG_CTRL 0 0 1 with cfgQ := [{ addr := Reg.PWR_CFG, mask := 0xFF, data := 7, grp := 0 }], grps := [{ id := 0, held := some 0 }], nextGrp := 1 }
def fullQueue : State := onA fun p => { p with cfgQ := List.replicate 1024 { addr := Reg.PWR_CFG, mask := 0xFF, data := 7, grp := 0 }, grps := [{ id := 0, rel := some 3 }], nextGrp := 1 }

/-- PWR.CFG is such a register, with HOLD clear, with HOLD set, and with the queue full. -/
theorem witness_ConfigWriteIsReleasedAsItsOwnGroup : let a := byteAddr (BitVec.ofNat 20 (Reg.PWR_CFG / 4))
    base.writes .a 0 0x1#4 a 7 ∧ base.a.isActive = true ∧ mirroredPage (a / 0x1000) = true ∧ a ≠ Reg.LOOP_L_CTRL ∧ base.a.entryPlace 0 a = none ∧
    a % 0x1000 ≠ 0x1C ∧ base.a.cfgQ.length < 1024 ∧ cfgMask a ≠ 0 ∧ base.a.heldGroup 0 = none ∧ holding.a.isActive = true ∧ holding.writes .a 0 0x1#4 a 7 ∧
    (holding.a.heldGroup 0).isSome = true ∧ fullQueue.writes .a 0 0x1#4 a 7 ∧ fullQueue.a.cfgQ.length = 1024 ∧
    (regAt a).any (fun r => !r.row.wide && !r.row.perPath && (beMask 0x1#4 &&& 7 &&& w32 r.row.w1c) == 0 && (beMask 0x1#4 &&& w32 (r.row.rw ||| r.row.rws ||| r.row.wo)) != 0 &&
      decide (base.a.fieldMask a r.row.rws (beMask 0x1#4 &&& w32 (r.row.rw ||| r.row.rws ||| r.row.wo)) 7 =
        { mask := beMask 0x1#4 &&& w32 (r.row.rw ||| r.row.rws ||| r.row.wo), data := 7, err := false })) = true := by decide +kernel

def bufferOf (base_ : Nat) : State := onB fun p => p.updPath 0 fun x => { x with bufs := [(0, { base := base_, words := [(0, 0xFFFFFFFF#32, 5#32)] })] }

/-- On the standby: a register; the last word of an entry; and a lower word, with no buffer open, with the entry's own and with another's. -/
theorem witness_StandbyWritesAndEntryBuffers : base.b.isActive = false ∧ base.writes .b 0 0x1#4 Reg.PWR_CFG 7 ∧ base.b.entryPlace 0 Reg.PWR_CFG = none ∧
    base.writes .b 0 0xF#4 0x10000C 7 ∧ (base.b.entryPlace 0 0x10000C).any (fun e => e.word == e.last) = true ∧
    base.writes .b 0 0xF#4 0x100000 7 ∧ (base.b.entryPlace 0 0x100000).any (fun e => e.word != e.last && e.base == 0 && e.win == 0) = true ∧ (base.b.path 0).bufs = [] ∧
    (∀ n ∈ [0, 1], (bufferOf n).writes .b 0 0xF#4 0x100000 7 ∧ ((bufferOf n).b.path 0).bufs.find? (fun b => b.1 == 0) = some (0, { base := n, words := [(0, 0xFFFFFFFF#32, 5#32)] })) := by
  decide +kernel

def latched (a : Nat) : State := onA fun p => p.updPath 0 fun x => { x with latch := [(a, some 77#32)] }
def driftHeld : State := onA fun p => p.updPath 0 fun x => { x with held := [(Reg.RED_DRILL_AT, (0xFFFFFFFF#32, 77#32))] }

/-- A wide register's low half, a latched word, SUBSEC, a read-to-clear count, and the three kinds of wide register that a host writes. -/
theorem witness_WideRegistersLatchHoldAndClear :
    (base.reads .a 0 Reg.RED_DRILL_AT ∧ (regAt Reg.RED_DRILL_AT).any (fun r => r.row.wide && !r.high && r.row.rc == 0) = true ∧
      base.a.latched 0 Reg.RED_DRILL_AT = none) ∧
    ((latched (Reg.RED_DRILL_AT + 4)).reads .a 0 (Reg.RED_DRILL_AT + 4) ∧ (regAt (Reg.RED_DRILL_AT + 4)).isSome = true ∧
      (latched (Reg.RED_DRILL_AT + 4)).a.latched 0 (Reg.RED_DRILL_AT + 4) = some 77#32) ∧
    (base.reads .a 0 Reg.RTC_SUBSEC ∧ base.a.latched 0 Reg.RTC_SUBSEC = none) ∧
    (base.reads .a 0 Reg.SYS_UNMAP_CNT ∧ base.a.latched 0 Reg.SYS_UNMAP_CNT = none ∧
      (regAt Reg.SYS_UNMAP_CNT).any (fun r => r.row.rc != 0 && (latches Reg.SYS_UNMAP_CNT r == [])) = true) ∧
    driftHeld.writes .a 0 0xF#4 (Reg.RED_DRILL_AT + 4) 1 ∧ driftHeld.a.heldLow 0 Reg.RED_DRILL_AT = (0xFFFFFFFF#32, 77#32) ∧
    base.writes .a 0 0xF#4 (Reg.TARN_PWD + 4) 1 ∧ base.writes .a 0 0xF#4 (Reg.SCAN_CHG 63 + 4) 1 ∧ base.a.isActive = true ∧
    base.writes .b 0 0xF#4 (Reg.SCAN_CHG 63 + 4) 1 ∧ base.b.isActive = false := by decide +kernel

def holdingBad : State := onA (fun p => { p with grps := [{ id := 0, held := some 0, bad := true }] }) holding

theorem witness_HoldReleasesAndDiscardDrops : base.writes .a 0 0x1#4 Reg.SYS_CFG_CTRL 1 ∧ base.writes .a 0 0x1#4 Reg.SYS_CFG_CTRL 0 ∧ base.a.heldGroup 0 = none ∧
    base.writes .a 0 0x1#4 Reg.SYS_CFG_CTRL 2 ∧ holdingBad.writes .a 0 0x1#4 Reg.SYS_CFG_CTRL 0 ∧ holdingBad.a.heldGroup 0 = some { id := 0, held := some 0, bad := true } ∧ holding.writes .a 0 0x1#4 Reg.SYS_CFG_CTRL 0 ∧
    holding.writes .a 0 0x1#4 Reg.SYS_CFG_CTRL 2 ∧ holding.a.heldGroup 0 = some { id := 0, held := some 0 } ∧
    holding.a.grps = [{ id := 0, held := some 0 }] ∧ (holding.a.cfgQ.any fun q => q.grp == 0) = true := by decide +kernel

/-- RED, page 0x2C, is a local page; PWR and PTP are mirrored, with the ID, with another value and with part of a word; on the standby; a page whose CTRL
has no writable bit in its lowest byte, and one that has. -/
theorem witness_SealAndSoftResetWrites : base.writes .a 0 0xF#4 (0x2C * 0x1000 + 0x1C) (idWord 0x2C) ∧ base.writes .a 0 0xF#4 (0x2C * 0x1000 + 0x1C) 5 ∧
    base.writes .a 0 0x1#4 (0x2C * 0x1000 + 0x1C) (idWord 0x2C) ∧ (blockOf 0x2C).isSome ∧ mirroredPage 0x2C = false ∧ mirroredPage 0x05 = true ∧ (blockOf 0x05).isSome ∧
    base.writes .a 0 0xF#4 (0x05 * 0x1000 + 0x1C) (idWord 0x05) ∧ base.a.isActive = true ∧ base.a.cfgQ.length < 1024 ∧
    base.writes .b 0 0xF#4 (0x05 * 0x1000 + 0x1C) (idWord 0x05) ∧ base.b.isActive = false ∧
    base.writes .a 0 0x1#4 Reg.PTP_CTRL ((base.a.rd Reg.PTP_CTRL &&& 1) ||| 2) ∧ base.writes .b 0 0x1#4 Reg.PTP_CTRL ((base.b.rd Reg.PTP_CTRL &&& 1) ||| 2) ∧
    (regAt Reg.PTP_CTRL).any (fun r => ((r.row.rw ||| r.row.rws ||| r.row.wo) &&& 0xFF) != 0) = true ∧
    (regAt (0x24 * 0x1000 + 4)).any (fun r => ((r.row.rw ||| r.row.rws ||| r.row.wo) &&& 0xFF) == 0) = true ∧ (blockOf 0x24).isSome ∧
    base.writes .a 0 0x1#4 (0x24 * 0x1000 + 4) ((base.a.rd (0x24 * 0x1000 + 4) &&& 1) ||| 2) := by
  decide +kernel

def released : State := onA fun p => { p with cfgQ := [{ addr := Reg.PWR_CFG, mask := 0xFF, data := 7, grp := 0 }], grps := [{ id := 0, rel := some 2 }], nextGrp := 1 }
/-- The group in both planes, acknowledged. -/
def acked : State := both (fun p => { p with cfgQ := [{ addr := Reg.PWR_CFG, mask := 0xFF, data := 7, grp := 0 }], grps := [{ id := 0, rel := some 2, acked := true }], nextGrp := 1 })

/-- Half-cycle 4: what was released in half-cycle 2 is due, on the active plane and, acknowledged, on the standby. -/
theorem witness_GroupsApplyTwoBoundariesAfterRelease : ({ base with now := 8193 } : State).now % 2048 ≠ 0 ∧ base.now % 2048 = 0 ∧ base.a.phase = .ready ∧
    released.a.isActive = true ∧ (released.a.dueGroups (halfOf released.now)).map CfgGroup.id = [0] ∧ acked.b.isActive = false ∧ acked.b.phase = .ready ∧ acked.a.isActive = true ∧
    ((acked.b.dueGroups (halfOf acked.now)).filter CfgGroup.acked).map CfgGroup.id = [0] ∧ (acked.a.dueGroups (halfOf acked.now)).all CfgGroup.acked = true ∧
    (released.a.cfgQ.any fun q => q.addr == Reg.PTP_CTRL && bit (q.mask &&& q.data) 1) = false ∧
    released.active? = some .a ∧
    (released.a.grps.find? fun g => g.id == 0 && g.rel.isSome && !g.acked) = some { id := 0, rel := some 2 } ∧ released.a.red.syncUp = true ∧
    released.b.red.syncUp = true ∧ released.b.red.role = .standby := by decide +kernel

theorem witness_IrqFollowsTheSummaryBits : base.a.phase = .ready := rfl

theorem witness_AliasesCopyTheOtherSysPage : base.now % 2048 = 0 ∧ base.bothRun ∧ base.a.red.syncUp = true ∧ base.b.red.syncUp = true ∧
    ({ (onA (onRed fun r => { r with syncUp := false })) with now := 2048 } : State).a.red.syncUp = false := by decide +kernel

/-! ### Witnesses: the Shore check and the sessions -/

/-- A read and a write of KEY.ZERO by T5, which is T0's; a plane that has not started. -/
theorem witness_ForbiddenAccessesChangeOnlyViolationRecords : base.forbids .a 0 5 false 0xFFFFFFFF#32 0 Reg.KEY_ZERO ≠ 0 ∧
    base.forbids .a 0 5 true (beMask 0xF) 0x5A31 Reg.KEY_ZERO ≠ 0 ∧ base.a.phase = .ready ∧ State.reset.a.phase = .starting := by decide +kernel

def sessionWith (k : Nat) (x : Session) (s : State := base) : State :=
  onA (fun p => (((p.wr Reg.ACCESS_REM_ALLOW_LO 0xFFFFFFFF).wr Reg.ACCESS_REM_ALLOW_HI 0xFFFFFFFF).setSession k x)) s
def opened : State := sessionWith 7 { opened := true, tag := 0, anchor := 5 }
def waiting : State := sessionWith 7 { opened := true, tag := 0, anchor := 5, wait := some { masks := [1, 0, 0], until_ := 10 ^ 12, seq := 1, addr := 0 } }
def waitOver : State := sessionWith 7 { opened := true, tag := 0, anchor := 5, wait := some { masks := [1, 0, 0], until_ := 0, seq := 1, addr := 0 } }

theorem witness_SessionRequestsPerformTheirWords : (base.a.session 7).opened = false ∧ (waiting.a.session 7).wait.isSome ∧
    (opened.a.session 7).opened = true ∧ (opened.a.session 7).wait = none ∧ (opened.a.session 7).submitting = none ∧ 256 < 257 ∧
    (0x3FFFFC % 4 = 0 ∧ 0x3FFFFC < 0x400000) ∧ (sessionWith 7 { opened := true, tag := 5, anchor := 5 }).forbids .a 8 5 true (beMask 0xF#4) 0 Reg.KEY_ZERO ≠ 0 ∧
    opened.a.heldGroup 8 = none := by decide +kernel

def keyed : State := onA fun p => { p with rtc := { p.rtc with osf := false }, keys := { p.keys with rootOk := true, slots := [(1, { st := .active, type := 1, use := 0x1FF, key := some [1] }), (9, { st := .active, type := 2, use := 0x1FF, key := some [1] })] } }

def openedB : State := onB (fun p => (((p.wr Reg.ACCESS_REM_ALLOW_LO 0xFFFFFFFF).wr Reg.ACCESS_REM_ALLOW_HI 0xFFFFFFFF).setSession 7 { opened := true, tag := 0, anchor := 5 }))

theorem witness_SessionsOpenWaitSubmitAndClose : (opened.a.session 7).opened = true ∧ (waitOver.a.waitOver 7 waitOver.now = true) ∧
    waiting.a.waitOver 7 waiting.now = false ∧ opened.a.isActive = true ∧ opened.a.prdF 8 Reg.CMD_RESULT 7 0 ≠ 1 ∧
    (∀ n ∈ List.range 8, opened.forbids .a 8 0 true 0xFFFFFFFF#32 0 (Reg.CMD_SUBMIT n) = 0) ∧
    ((onA (fun p => p.pwr 8 Reg.CMD_RESULT 1) opened).a.prdF 8 Reg.CMD_RESULT 7 0 = 1 ∧
      ∀ n ∈ List.range 8, (onA (fun p => p.pwr 8 Reg.CMD_RESULT 1) opened).forbids .a 8 0 true 0xFFFFFFFF#32 0 (Reg.CMD_SUBMIT n) = 0) ∧
    ((openedB.b.session 7).opened = true ∧ openedB.b.isActive = false ∧ openedB.b.prdF 8 Reg.CMD_RESULT 7 0 ≠ 1 ∧
      ∀ n ∈ List.range 8, openedB.forbids .b 8 0 true 0xFFFFFFFF#32 0 (Reg.CMD_SUBMIT n) = 0) ∧
    (sessionWith 7 { opened := true, tag := 5, anchor := 5 }).forbids .a 8 5 true 0xFFFFFFFF#32 0 (Reg.CMD_SUBMIT 0) ≠ 0 ∧
    keyed.a.running = true ∧ (keyed.a.session 0).opened = false ∧ keyed.a.authenticates 0 9 = true ∧ base.a.authenticates 0 9 = false := by decide +kernel

/-! ### Witnesses: the mains time base (chapter 3) -/

def onMpe (f : MpeSt → MpeSt) (s : State := base) : State := both (fun p => p.updMpe f) s
/-- What a plane tracks of L1. -/
def onL1 (f : PhaseTrk → PhaseTrk) (st : MpeState) : State := onMpe fun m => { m with st := st, trk := [f {}], phGood := 7, runs := 16 }

/-- Off a boundary; at one, with a holder and without, with a plane unpowered, with the cycle already recorded or TT already moved. -/
theorem witness_CycleStartAdvancesTrueTime : ({ base with now := 4097 } : State).now % 4096 ≠ 0 ∧ base.now % 4096 = 0 ∧
    (base.fs.au.holder = some .a ∧ base.a.phase = .ready) ∧
    (let s := onAu fun u => { u with holder := none }; s.fs.au.holder = none ∧ s.dataPathStarted = true) ∧
    ({ base with a := { base.a with phase := .unpowered } } : State).a.phase = .unpowered ∧ State.reset.a.phase ≠ .unpowered ∧
    (base.a.mpe.hist.head?.map TickRec.cycle ≠ some (base.now / 4096) ∧ base.a.mpe.ttCycle ≠ base.now / 4096 ∧ base.a.mpe.st ≠ .flywheel) ∧
    (onMpe fun m => { m with ttCycle := 2 }).a.mpe.ttCycle = base.now / 4096 := by decide +kernel

/-- 16 good cycles; each way in which L1 is disturbed, and an L1 that is not; FLYWHEEL and RELOCK with their runs, and without. STEER_DIFF with no active plane, with
a standby of another period and of the same. -/
theorem witness_MpeStatesFollowTheMainsAndTheActivePeriod : base.a.phase = .ready ∧
    ((onL1 id .acquire).a.mpe.st = .acquire ∧ 16 ≤ (onL1 id .acquire).a.mpe.runs ∧ ¬ 16 ≤ base.a.mpe.runs) ∧
    (∀ st ∈ [MpeState.locked, .relock], (onL1 (fun x => { x with low20 := 1024 }) st).a.mpe.st = st ∧ 1024 ≤ ((onL1 (fun x => { x with low20 := 1024 }) st).a.mpe.phase 0).low20 ∧
      2 ≤ ((onL1 (fun x => { x with missed := 2 }) st).a.mpe.phase 0).missed) ∧
    (let m := (onMpe fun m => { m with st := .locked, meas := [(44999, 5)], fast := true, err := -65537 }).a.mpe
     m.meas.head? = some (44999, 5) ∧ m.fast = true ∧ 65536 < m.err.natAbs) ∧
    (let m := (onL1 (fun x => { x with low20 := 1023, missed := 1 }) .locked).a.mpe
     (m.phase 0).low20 < 1024 ∧ (m.phase 0).missed < 2 ∧ m.meas.head? = none ∧ m.fast = false ∧ m.err.natAbs ≤ 65536) ∧
    ((onL1 id .flywheel).a.mpe.st = .flywheel ∧ (onL1 id .flywheel).a.mpe.phGood.getLsbD 0 = true ∧ 8 ≤ (onL1 id .flywheel).a.mpe.runs) ∧
    ((onL1 id .relock).a.mpe.st = .relock ∧ 4 ≤ (onL1 id .relock).a.mpe.runs) ∧
    (onA offLine (onAu fun u => { u with holder := none })).active? = none ∧ base.active? = some .a ∧ base.b.phase = .ready ∧ base.b.red.role = .standby ∧
    base.b.red.syncUp = true ∧ base.b.mpe.own ≠ base.b.mpe.own + 1 := by decide +kernel

def failing (f : PowerSt → PowerSt := id) : State := onField (fun x => { x with power := f x.power }) (onL1 (fun x => { x with low70 := 1024 }) .locked)

/-- A warning due, in a module that goes on, one with the hold-up store faulted and one whose ports are shed; one standing, with every phase good and with L1 not. -/
theorem witness_SupplyLossWarningRaisesAndClears : (base.fs.power.slw = false ∧ ∀ k < 3, (base.a.mpe.phase k).missed < 2 ∧ (base.a.mpe.phase k).low70 < 1024 ∧
      (base.b.mpe.phase k).missed < 2 ∧ (base.b.mpe.phase k).low70 < 1024) ∧
    (failing.fs.power.slw = false ∧ failing.a.phase = .ready ∧ 1024 ≤ (failing.a.mpe.phase 0).low70) ∧
    (failing.fs.power.shed = false ∧ (failing.plane failing.lead).rdF Reg.FAULT_FIELD_FLT 12 12 ≠ 1) ∧ (failing fun p => { p with shed := true }).fs.power.shed = true ∧
    (let s := both (fun p => p.wrF Reg.FAULT_FIELD_FLT 12 12 1) failing; (s.plane s.lead).rdF Reg.FAULT_FIELD_FLT 12 12 = 1 ∧ s.fs.power.shed = false ∧ s.fs.power.slw = false) ∧
    (let s := failing fun p => { p with slw := true }; s.fs.power.slw = true ∧ ∀ k < 3, (s.plane s.lead).mpe.phGood.getLsbD k = true) ∧
    (let s := onField fun f => { f with power := { f.power with slw := true } }; s.fs.power.slw = true ∧ (s.plane s.lead).mpe.phGood.getLsbD 0 = false) := by decide +kernel

def ptp (f : MpeSt → MpeSt) : State := both fun p => ({ p with applied := [(Reg.PTP_CTRL, 1), (Reg.PTP_CFG, 0xF0702)] } : Plane).updMpe f

/-- Profile 2 in domain 7, on the uplink in the time-receiver state and on another; an offset of 10,001 ns, the 16th of 1,000 ns in a row, the first of a row. PTP off. -/
theorem witness_PtpServoFollowsItsMessages :
    (let x := (ptp fun m => { m with ranks := [(1, 5)], sync := 2 }).a
     x.phase = .ready ∧ bit (x.cfg Reg.PTP_CTRL) 0 = true ∧ bit (x.cfg Reg.PTP_CFG) (16 + 1) = true ∧ x.cfgF Reg.PTP_CFG 1 0 = (2 : Fin 4).val ∧ x.cfgF Reg.PTP_CFG 15 8 = 7 ∧
       x.mpe.receiver = some 1 ∧ x.mpe.receiver ≠ some 3 ∧ bit (x.cfg Reg.PTP_CFG) (16 + 3) = true ∧ x.mpe.sync = 2) ∧
    10000 < (10001 : Int).natAbs ∧ (1000 : Int).natAbs ≤ 1000 ∧ (1000 < (-1001 : Int).natAbs ∧ (-1001 : Int).natAbs ≤ 10000) ∧
    15 ≤ (ptp fun m => { m with ranks := [(1, 5)], sync := 1, syncRun := 15 }).a.mpe.syncRun ∧
    (ptp fun m => { m with ranks := [(1, 5)], sync := 0, syncRun := 14 }).a.mpe.sync = 0 ∧ (ptp id).active? = some .a ∧ bit (base.a.cfg Reg.PTP_CTRL) 0 = false := by decide +kernel

def source : State :=
  let f (p : Plane) : Plane := { p with applied := [(Reg.PTP_CTRL, 1), (Reg.PTP_CYC_CFG, 1), (Reg.PTP_ANN_PORT, 0x9143A)], keys := { p.keys with rootOk := true, slots := [(9, { st := .active, type := 4, use := 0x1FF, key := some [1] })] } }
  both fun p => (f p).updMpe fun x => { x with st := .locked, sync := 2, ranks := [(0, 5)], hist := [{ cycle := 2, ptp := 3 * 10 ^ 9, trim := 0 }, { cycle := 1, ptp := 3, trim := 0 }], timeValid := true, cyc := .adopted, sources := [4, 9] }

theorem witness_AnnouncementsAreSentByASourceAndCheckedByAReceiver : source.active? = some .a ∧ source.a.annKeys false = [[1]] ∧
    bit (source.a.cfg Reg.PTP_CTRL) 0 = true ∧ bit (source.a.cfg Reg.PTP_CYC_CFG) 0 = true ∧ source.a.mpe.st = .locked ∧ source.a.mpe.sync = 2 ∧
    source.a.mpe.newSecond = true ∧ source.now % 4096 < 2048 ∧ source.a.mpe.receiver = some 0 ∧ base.a.mpe.sync ≠ 2 ∧ base.active? = some .a ∧
    (onA offLine (onAu fun u => { u with holder := none })).active? = none ∧ bit (base.a.cfg Reg.PTP_CTRL) 0 = false ∧ base.a.phase = .ready := by decide +kernel

def follower : State := both (fun p => { p with applied := [(Reg.PTP_CTRL, 1), (Reg.PTP_ANN_PORT, 0x9143A)] }) source
/-- An announcement of cycle 7 by source `id`, and the same signed with the key of slot 9. -/
def annHead (id : Nat) : List Byte :=
  leBytes 1 1 ++ leBytes 1 4 ++ leBytes 2 0 ++ leBytes 4 id ++ leBytes 8 (7 * 4096) ++ leBytes 6 3 ++ leBytes 2 0 ++ leBytes 4 0 ++ leBytes 4 20000000
def announces (id : Nat) : List Byte := annHead id ++ (hmacOf [1] (annHead id)).take 16

/-- The same statement: a receiver and a source of the campus, and the header of good announcements of source 4, the lowest heard, and of source 9. -/
theorem witness_AnnouncementsAreSentByASourceAndCheckedByAReceiver_received :
    (∀ s ∈ [source, follower], bit (s.a.cfg Reg.PTP_CTRL) 0 = true ∧ s.a.annKeys true = [[1]] ∧ s.a.mpe.sync = 2 ∧ s.a.phase = .ready ∧
      fld (s.a.cfg Reg.PTP_BUILDING) 15 0 = 0) ∧ bit (source.a.cfg Reg.PTP_CYC_CFG) 0 = true ∧ bit (follower.a.cfg Reg.PTP_CYC_CFG) 0 = false ∧
    (∀ n ∈ [4, 9], let b := annHead n
      b.length = 32 ∧ ofLe (slice b 0 1) = 1 ∧ ofLe (slice b 2 2) = 0 ∧ ofLe (slice b 1 1) / 4 % 2 = 1 ∧ ofLe (slice b 4 4) = n ∧
        (insertNat n source.a.mpe.sources).headD n = 4) ∧
    ([] : List Byte).length ≠ 48 := by decide +kernel

/-- The same statement: the signature. -/
theorem witness_AnnouncementsAreSentByASourceAndCheckedByAReceiver_signed (n : Nat) (h : (annHead n).length = 32) :
    (announces n).length = 48 ∧ (hmacOf [1] ((announces n).take 32)).take 16 = (announces n).drop 32 := by
  have m : ((hmacOf [1] (annHead n)).take 16).length = 16 := by simp [hmacOf, bytesOf]
  refine ⟨by rw [announces, List.length_append, h, m], ?_⟩
  rw [announces, List.take_left' h, List.drop_left' h]

def adopting : State := both (fun p => { p.updMpe (fun m => { m with cyc := .none, adopt := some 3, lockedTt := some 0 }) with dataPath := false })
def waitsToAdopt (tt : Nat) : State := onMpe fun m => { m with cyc := .none, adopt := none, lockedTt := some 0, tt16 := 16 * tt }
def realigning (d : Int := 3) : State := onMpe fun m => { m with cyc := .adopted, realign := true, cycDiff := d }

/-- The lead waits to adopt; the other plane alone waits; the wait over and not; a step with nothing in flight, with a slot alive and with CYC_DIFF 0. -/
theorem witness_NumberingIsAdoptedRealignedAndSettled : ({ base with now := 4097 } : State).now % 4096 ≠ 0 ∧ (base.a.mpe.adopt = none ∧ base.b.mpe.adopt = none) ∧
    (adopting.now % 4096 = 0 ∧ adopting.bothRun ∧ adopting.lead = .a ∧
      adopting.a.mpe.cyc = .none ∧ adopting.a.mpe.adopt = some 3 ∧ adopting.b.mpe.adopt = some 3 ∧ adopting.dataPathStarted = false ∧ adopting.a.mpe.lockedTt.isSome = true) ∧
    (let s := onB (fun p => p.updMpe fun m => { m with cyc := .none, adopt := some 3 }); s.lead = .a ∧ s.a.mpe.adopt = none ∧ s.b.mpe.cyc = .none ∧ s.b.mpe.adopt = some 3 ∧ s.dataPathStarted = true) ∧
    (waitsToAdopt (10 * 10 ^ 9)).a.mpe.lockedTt = some 0 ∧ 0 + max 1 (fld (base.a.cfg Reg.PTP_CYC_CFG) 31 24) * 1000000000 ≤ (waitsToAdopt (300 * 10 ^ 9)).a.tt base.now ∧
    (waitsToAdopt 0).a.tt base.now < 0 + max 1 (fld (base.a.cfg Reg.PTP_CYC_CFG) 31 24) * 1000000000 ∧
    realigning.bothRun ∧ (∀ d ∈ [(3 : Int), 0], ((realigning d).plane (realigning d).lead).mpe.realign = true ∧ ((realigning d).plane (realigning d).lead).mpe.cycDiff = d ∧
      (realigning d).a.slotsIn Slot.alive = [] ∧ (realigning d).b.slotsIn Slot.alive = []) ∧
    (both (fun p => p.setSlot 3 { st := .booked, tag := 0 }) realigning).a.slotsIn Slot.alive ≠ [] ∧
    realigning.writes .a 0 0x1#4 Reg.PTP_CYC_CTRL 1 ∧ realigning.a.isActive = true ∧ base.writes .a 0 0x1#4 Reg.PTP_CYC_CTRL 1 ∧ base.a.mpe.cycDiff ≤ 0 ∧
    base.writes .b 0 0x1#4 Reg.PTP_CYC_CTRL 1 ∧ base.b.isActive = false ∧
    (base.a.weir.slots.any fun e => e.2.alive && e.2.g1) = false ∧ base.a.cfgQ = [] ∧
    ((both (fun p => p.setSlot 3 { st := .booked, tag := 0, g1 := true })).a.weir.slots.any fun e => e.2.alive && e.2.g1) = true := by decide +kernel

/-! ### Witnesses: ports and the power budget (chapter 6) -/

def capped (n k : Nat) : State := both (fun p => { p with applied := [(Reg.PORTG_CFG (n / 8) (n % 8), w32 (k * 256))] }) (port n .classifying)

/-- Class 8 of a type 4 port without a cap, class 6 of a type 3 port, class 3 above a cap of 5 W, and a dual-signature PD with and without room, on the last port. -/
theorem witness_PortsDetectAndClassify : (port 127 .searching).fs.port 127 = { st := .searching } ∧ (port 0 .disabled).fs.port 0 = {} ∧
    ((port 127 .classifying).fs.port 127).st = .classifying ∧ ((port 127 .classifying).fs.port 127).held = false ∧
    (let g (hi lo : Nat) : Nat := fld ((port 127 .classifying).cfg (Reg.PORTG_CFG 15 7)) hi lo; g 15 8 = 0 ∧ g 1 1 = 1) ∧
    (let g (hi lo : Nat) : Nat := fld ((capped 127 130).cfg (Reg.PORTG_CFG 15 7)) hi lo
     ((capped 127 130).fs.port 127).st = .classifying ∧ g 15 8 = 130 ∧ g 1 1 = 0 ∧ classPower 6 ≤ 500 * min 180 130 ∧ ∀ m ∈ [7, 8], classPower 6 < classPower m) ∧
    (((capped 127 10).fs.port 127).st = .classifying ∧ fld ((capped 127 10).cfg (Reg.PORTG_CFG 15 7)) 15 8 = 10 ∧ 500 * min 180 10 < classPower 3) ∧
    (assignDual (port 127 .classifying).cfg 127 4 3).isSome = true ∧ assignDual (capped 127 10).cfg 127 4 3 = none ∧
    ((port 0 .waitBudget).fs.port 0).st = .waitBudget ∧ ((port 0 .denied).fs.port 0).st = .denied := by decide +kernel

theorem witness_PortsPowerUpAndFault : ((port 0 .powerUp).fs.port 0).st = .powerUp ∧ ((port 127 .powered).fs.port 127).st = .powered ∧
    (let x := (port 127 .fault fun x => { x with cmd := 1, fault := 3 }).fs.port 127; x.st = .fault ∧ x.cmd = 1 ∧ x.fault ≠ 4) ∧
    ((port 127 .fault fun x => { x with cmd := 1, fault := 4 }).fs.port 127).fault = 4 := by decide +kernel

/-- A check of a sleeping port, of a powered one, and in a half-cycle in which a change of the port's group is booked. -/
theorem witness_PseCellAndLeakageFaults :
    (let s := both (fun p => p.wr Reg.BKG_CFG 63) (port 127 .sleep); (s.fs.port 127).st = .sleep ∧ (s.plane s.lead).bkgOn 3 = true ∧ s.fs.lq = [] ∧ s.bothRun) ∧
    ((port 127 .powered).fs.port 127).st = .powered ∧
    (let s := onField (fun f => { f with lq := [{ plane := .a, standing := false, slot := 7, seq := 9, tick := 9000, path := 0x178, tag := 0 }] }) (port 127 .sleep)
     ∃ l ∈ s.fs.lq, 0x100 ≤ l.path ∧ l.path < 0x180 ∧ (l.path - 0x100) / 8 = 127 / 8 ∧ l.tick / 2048 = s.now / 2048) := by decide +kernel

def riding (f : PowerSt → PowerSt) (s : State := base) : State :=
  onField (fun x => { x with power := f { x.power with ride := true, slw := true, slwTt := 5 } }) s
def shedding : State := riding (fun x => { x with rideEnd := some 100 }) (port 127 .powered fun x => { x with alloc := 4000 })
/-- The same with two phases of three good. -/
def partly : State := both (fun p => { p.updMpe (fun m => { m with phGood := 3 }) with applied := [(Reg.MPE_CFG, 6)] }) shedding

/-- At the end of ride-through with no good phase, and with two; frames that name ports 0 and 127. -/
theorem witness_RideThroughShedsAndWakesLaunchPorts : base.fs.power.ride = false ∧ (riding id).fs.power.ride = true ∧
    (riding id).ttNow < (riding id).fs.power.slwTt + max 20 (min 200 (fld ((riding id).cfg Reg.PWR_CFG) 7 0)) * 1000000 ∧
    (let s := both (atSec 1) (riding id); s.fs.power.slwTt + max 20 (min 200 (fld (s.cfg Reg.PWR_CFG) 7 0)) * 1000000 ≤ s.ttNow) ∧ base.fs.power.rideEnd = none ∧
    (shedding.fs.power.rideEnd = some 100 ∧ 100 < shedding.now ∧ shedding.fs.power.slw = true ∧ shedding.goodPhases ≠ 2 ∧ (shedding.fs.port 127).st = .powered) ∧
    (partly.fs.power.rideEnd = some 100 ∧ partly.fs.power.slw = true ∧ partly.goodPhases = 2 ∧ fld (partly.cfg Reg.MPE_CFG) 2 1 = 3) ∧
    base.fs.waking = [] ∧ ({ base with now := 8193 } : State).now % 2048 ≠ 0 ∧
    (let s := onField (fun f => { f with waking := [(0, 1, 0), (5, 2 ^ 127, 0)] }) (port 127 .sleep fun x => { x with cmd := 2 })
     s.now % 2048 = 0 ∧ s.fs.waking ≠ [] ∧ (s.fs.port 127).cmd = 2 ∧ (∃ e ∈ s.fs.waking, e.2.1 / 2 ^ 127 % 2 = 1) ∧ (s.fs.port 0).cmd ≠ 2) := by decide +kernel

/-! ### Witnesses: deterministic commands (chapter 4) -/

def record (b1 slot tag launch deadline item : Nat) : List Byte :=
  leBytes 1 1 ++ leBytes 1 b1 ++ leBytes 1 slot ++ leBytes 1 tag ++ leBytes 8 launch ++ leBytes 8 deadline ++ leBytes 4 item ++ leBytes 8 0
/-- Weir in service, port 5 and channel 0 enabled, both links up. -/
def weir : State := both fun p => { p with applied := [(Reg.WEIR_CTRL, 1), (Reg.PORTG_CFG 0 5, 1), (Reg.CAN_CTRL 0, 1), (Reg.CAN_DIR 0 0, 1)], mpe := { p.mpe with timeValid := true }, weir := { p.weir with linkUp := [true, true] } }
def submitted (r : List Byte) : State := both (fun p => p.updWeir fun w => { w with subs := [{ path := 0, tag := 0, record := r }] }) weir
def links (l : List Bool) : State := both (fun p => p.updWeir fun w => { w with linkUp := l }) weir
def slot7 (f : Slot → Slot) (s : State := weir) : State :=
  both (fun p => p.setSlot 7 (f { st := .booked, tag := 0, seq := 9, launch := 10300, path := 0x105, action := .pse 5 true, deadline := 100000 })) s
def accepts (r : List Byte) : Bool := (decide_ weir.a weir.fs { path := 0, tag := 0, record := r } weir.now).accept.isSome
def launchOf (r : List Byte) : Option Nat := (decide_ weir.a weir.fs { path := 0, tag := 0, record := r } weir.now).accept.map fun e => e.1.launch

/-- An AT command at the first tick that R105 admits, one of class G1, and an EARLIEST one, whose tick is the first that fits; 64 half-cycles on is too late for G1. -/
theorem witness_AcceptedCommandsKeepTheirBounds : accepts (record 4 3 0 10240 100000 0x105) = true ∧ accepts (record 6 3 0 12300 100000 0x105) = true ∧
    launchOf (record 5 3 0 0 100000 0x105) = some 10240 ∧ weir.a.rd64 Reg.RED_CLAIM_AT ≤ weir.now ∧ accepts (record 4 3 0 10239 100000 0x105) = false := by decide +kernel

/-- Port 5's slot at tick 10,240 taken: the first tick from there on that fits is later. -/
def taken : State := both (fun p => p.updWeir fun w => { w with books := [{ src := .intent 5, tick := 10240, path := 0x105, link := 0, blocks := 1 }] }) weir

theorem witness_AcceptedCommandsKeepTheirBounds_earliest :
    (decide_ taken.a taken.fs { path := 0, tag := 0, record := record 5 3 0 0 100000 0x105 } 8192).accept.any (fun e => decide (10240 < e.1.launch) && e.1.earliest) = true ∧
    (halfOf 8192 + 1) * 2048 ≤ 10240 ∧ 8192 + 16 ≤ 10240 := by decide +kernel

def verdict (r : List Byte) (s : State := weir) : Nat × Nat := let v := decide_ s.a s.fs { path := 0, tag := 0, record := r } s.now; (v.code, v.detail)

/-- A wrong first byte, another tag, a port not enabled, each bound of the window, and a tick with no slot left. -/
theorem witness_RefusedCommandsCarryTheFirstFailingTest : (verdict (record 4 3 0 10240 100000 0x105).reverse).1 = 0x24 ∧
    (let v := decide_ weir.a weir.fs { path := 0, tag := 5, record := record 4 3 0 10240 100000 0x105 } weir.now; v.code = 0x22) ∧ (verdict (record 4 3 0 10240 100000 0x106)).1 = 0x23 ∧
    verdict (record 4 3 0 10239 100000 0x105) = (0x21, 0x30) ∧ verdict (record 4 3 0 (69 * 2048) 1000000 0x105) = (0x21, 0x31) ∧ verdict (record 4 3 0 10240 10239 0x105) = (0x21, 0x32) ∧
    (verdict (record 4 3 0 10240 100000 0x105) taken).1 = 0x20 ∧ verdict (record 4 3 0 10240 100000 0x105) = (0x10, 0) := by decide +kernel

def pendingA : State := onA (fun p => p.pwr 0 Reg.CMD_RESULT 1) weir

theorem witness_SubmitWaitsForWeir : weir.writes .a 0 0xF#4 (Reg.CMD_SUBMIT 7) 0 ∧ weir.writes .a 0 0x0#4 (Reg.CMD_SUBMIT 7) 0 ∧ weir.a.isActive = true ∧ weir.a.prdF 0 Reg.CMD_RESULT 7 0 ≠ 1 ∧
    pendingA.a.prdF 0 Reg.CMD_RESULT 7 0 = 1 ∧ pendingA.writes .a 0 0xF#4 (Reg.CMD_SUBMIT 7) 0 ∧
    weir.writes .b 0 0xF#4 (Reg.CMD_SUBMIT 7) 0 ∧ weir.b.isActive = false ∧ weir.b.prdF 0 Reg.CMD_RESULT 7 0 ≠ 1 := by decide +kernel

theorem witness_WeirDecidesInTurnAndTheStandbyFollows : weir.a.weir.nextSource = none ∧
    (∀ r ∈ [record 4 3 0 10240 100000 0x105, record 4 3 0 10240 10239 0x105], (submitted r).a.red.role ≠ .standby ∧ (submitted r).a.isActive = true ∧ (submitted r).a.weir.nextSource = some 0 ∧
      (submitted r).a.weir.waiting 0 = some { path := 0, tag := 0, record := r }) ∧
    (decide_ (submitted (record 4 3 0 10240 100000 0x105)).a weir.fs { path := 0, tag := 0, record := record 4 3 0 10240 100000 0x105 } 8192).accept.isSome ∧
    (decide_ (submitted (record 4 3 0 10240 10239 0x105)).a weir.fs { path := 0, tag := 0, record := record 4 3 0 10240 10239 0x105 } 8192).accept = none ∧
    (submitted (record 4 3 0 10240 100000 0x105)).b.isActive = false ∧ (submitted (record 4 3 0 10240 100000 0x105)).b.weir.nextSource = some 0 ∧
    (let s := onA (fun p => p.updWeir fun w => { w with scanQ := [{ path := 9, tag := 0, record := record 4 3 0 10240 100000 0x105 }] }) weir
     s.a.weir.nextSource = some 9 ∧ (s.a.weir.waiting 9).isSome = true) ∧
    weir.b.follows = true ∧ weir.a.follows = false := by decide +kernel

/-- The last head fires at offset 100 of every half-cycle; the last loop launches the head before it, 500 ticks into its quarter-cycle. -/
def firing (loopHead : Nat := 4094) : State := both (fun p => { p with
    heads := [(4095, { st := .armed })], loops := [(511, { booked := true })],
    applied := p.applied ++ [(atWord 4095 0, 0x502), (atWord 4095 1, 0x300), (atWord 4095 2, 100), (atWord loopHead 0, 0x102), (atWord loopHead 1, 0x300),
      (loopRec 511 0, 0x21), (loopRec 511 5, w32 (4094 + 65536 * 500))],
    weir := { p.weir with books := [{ src := .loop 511, tick := 8692, path := 0x300, link := 1, blocks := 1 }, { src := .head 4095, tick := 10340, path := 0x300, link := 0, blocks := 1 }] } }) weir

/-- A command booked for this half-cycle, the next and the one after; an intent, a head and a loop with a booking and without; over a dead link and on the standby. -/
theorem witness_LaunchesAreSentInTheHalfCycleBefore : weir.a.phase = .ready ∧ State.reset.a.phase ≠ .ready ∧
    ((slot7 id).a.slot 7).st = .booked ∧ halfOf ((slot7 id).a.slot 7).launch ≤ halfOf weir.now + 1 ∧
    halfOf weir.now + 1 < halfOf ((slot7 fun x => { x with launch := 12288 }).a.slot 7).launch ∧
    (weir.a.slot 255).st = .free ∧ (slot7 id).b.isActive = false ∧ (slot7 id).a.isActive = true ∧ (slot7 id).a.rd64 Reg.RED_CLAIM_AT ≤ 10300 ∧
    ((slot7 id).a.weir.linkOf (.slot 7) 10300).isSome = true ∧ ((links [false, false]).a.weir.linkOf (.slot 7) 10300).isSome = false ∧
    ((taken.a.weir.books.find? fun b => b.src == .intent 5).any fun b => decide (halfOf b.tick ≤ halfOf taken.now + 1)) = true ∧ weir.a.weir.books = [] ∧
    (taken.a.weir.linkOf (.intent 5) 10240).isSome = true ∧ headTick (atHead weir.a.cfg 4095) (halfOf weir.now + 1) = none ∧ (weir.a.loop 511).booked = false := by
  decide +kernel

/-- The same statement: an armed head and a loop whose launches are booked, and one whose head does not stand. -/
theorem witness_LaunchesAreSentInTheHalfCycleBefore_standing :
    (let s := firing
     headTick (atHead s.a.cfg 4095) (halfOf s.now + 1) = some 10340 ∧ (s.a.head 4095).st = .armed ∧ (s.a.weir.books.any fun b => b.src == .head 4095 && b.tick == 10340) = true ∧
       (loopRecOf s.a.cfg 511).actEn = true ∧ (s.a.loop 511).booked = true ∧ s.now / 1024 * 1024 + (loopRecOf s.a.cfg 511).ofs = 8692 ∧
       (s.a.weir.books.any fun b => b.src == .loop 511 && b.tick == 8692) = true ∧ (loopRecOf s.a.cfg 511).headOk s.a.cfg = true ∧ (s.a.weir.linkOf (.loop 511) 8692).isSome = true) ∧
    (loopRecOf (firing 4093).a.cfg 511).headOk (firing 4093).a.cfg = false := by decide +kernel

def queued (f : Launch → Launch) : State :=
  onField (fun x => { x with lq := [f { plane := .a, standing := false, slot := 7, seq := 9, tick := 8192, path := 0x105, tag := 0, parts := [(0, leBytes 1 1)], last := some 0 }] })
    (slot7 fun x => { x with st := .sent, launch := 8192 })
def found (s : State) (i : PlaneId) (standing : Bool := false) : Bool := (s.fs.lq.find? fun l => l.is i standing 7 9 s.now && !l.released).isSome
/-- A launch of A's is found complete, on whose blocks the field side acts, not made yet, and its path does not fail. -/
def goes (s : State) : Bool := found s .a && s.fs.au.actsAt .a s.now && (s.fs.ended 7 9 s.now).isNone && s.fs.lq.all fun l => l.complete && !pathFails s.fs l.path

/-- No such launch; one of the standby; duplicates; one with a block missing; one whose port has no link; a PSE change. -/
theorem witness_ReleasedLaunchesActOrBreak : found base .a = false ∧
    (let s := queued fun l => { l with plane := .b }; found s .b = true ∧ s.fs.au.actsAt .b s.now = false) ∧
    (let s := onField (fun f => { f with ends := [(7, some (9, 8192, true))] }) (queued id); found s .a = true ∧ s.fs.au.actsAt .a s.now = true ∧ (s.fs.ended 7 9 s.now).isSome = true) ∧
    (let s := onField (fun f => { f with made := [(9, 8192)] }) (queued fun l => { l with standing := true }); found s .a true = true ∧ (9, s.now) ∈ s.fs.made) ∧
    (let s := queued fun l => { l with last := none }; found s .a = true ∧ s.fs.au.actsAt .a s.now = true ∧ s.fs.made = [] ∧ s.fs.ended 7 9 s.now = none ∧ (s.fs.lq.all fun l => !l.complete) = true ∧ s.a.phase = .ready ∧
      (s.a.slot 7).alive = true ∧ (s.a.slot 7).seq = 9) ∧
    (let s := queued fun l => { l with path := 5 }; found s .a = true ∧ s.fs.au.actsAt .a s.now = true ∧ (s.fs.lq.all fun l => l.complete && pathFails s.fs l.path) = true) ∧
    (let s := queued id; goes s = true ∧ (s.a.slot 7).st = .sent ∧ (s.a.slot 7).seq = 9 ∧ s.now ≤ (s.a.slot 7).launch) := by decide +kernel

def uplinked (f : Uplink → Uplink := id) : State := onField (fun x => { x with upl := [(3, f { link := true })] }) (queued fun l => { l with path := 0x203, parts := [(0, leBytes 40 5)] })

/-- The same statement: a frame on a port, on an uplink that is free, paused, in a switch-over gap or busy, and a CAN frame with a free transmit object and with none. -/
theorem witness_ReleasedLaunchesActOrBreak_frames :
    goes (onField (fun x => { x with ports := [(5, { link := true })] }) (queued fun l => { l with path := 5, parts := [(0, leBytes 40 5)] })) = true ∧
    (let s := uplinked; goes s = true ∧ (s.fs.uplink 3).pauseUntil = none ∧ s.fs.inGap s.now = false ∧ s.wireAt 131 < s.ttNow + s.fs.tickNs ∧ (s.fs.uplink 3).held = [] ∧ s.fs.lq.length = 1) ∧
    (let s := uplinked fun x => { x with pauseUntil := some 5 }; goes s = true ∧ (s.fs.uplink 3).pauseUntil.isSome = true) ∧
    (let s := onField (fun f => { f with au := { f.au with claimAt := 8193 } }) uplinked; goes s = true ∧ s.fs.inGap s.now = true) ∧
    (let s := onField (fun f => { f with fab := { f.fab with freeAt := [(131, 10 ^ 9)] } }) uplinked; goes s = true ∧ s.ttNow + s.fs.tickNs ≤ s.wireAt 131) ∧
    (let s := queued fun l => { l with path := 0x300 }; goes s = true ∧ freeObj s.cfg 0 (s.fs.chan 0) = some 0) ∧
    (let s := onField (fun x => { x with can := [(0, { tx := [(0, { st := .waiting })] })] }) (queued fun l => { l with path := 0x300 }); goes s = true ∧ freeObj s.cfg 0 (s.fs.chan 0) = none) := by
  decide +kernel

/-- Up to the last tick of the allowance, and the tick after it, on a port and on an uplink. -/
theorem witness_StartsDeliverAndExpiredAllowancesBreak : weir.a.phase = .ready ∧
    (let s := slot7 fun x => { x with st := .launched, launch := 8192, path := 5 }; (s.a.slot 7).st = .launched ∧ s.now ≤ (s.a.slot 7).launch + allowance s.a.cfg (s.a.slot 7).path) ∧
    (let s := slot7 fun x => { x with st := .launched, launch := 8191, path := 5 }; (s.a.slot 7).st = .launched ∧ (s.a.slot 7).launch + allowance s.a.cfg (s.a.slot 7).path < s.now) ∧
    (let s := slot7 fun x => { x with st := .launched, launch := 100, path := 0x203 }; (s.a.slot 7).st = .launched ∧ (s.a.slot 7).launch + allowance s.a.cfg (s.a.slot 7).path < s.now) := by
  decide +kernel

def unacknowledged (tries : Nat) (src : LaunchSrc := .slot 7) (type : Nat := 1) : State :=
  both (fun p => p.updWeir fun w => { w with tx := [{ link := 0, lseq := 3, idx := 0, tries := tries, src := src, bytes := leBytes 1 type }] }) (slot7 fun x => { x with st := .sent })

/-- The block of a PSE launch of A, and of the report of its start. -/
def launchBlock (seq : Nat := 9) : List Byte := blockBytes 1 4 0 10300 7 0 0x105 seq (leBytes 1 1)
def startBlock : List Byte := blockBytes 0x82 0 0 8200 7 0 5 9 (leBytes 8 2 ++ leBytes 8 8192)

theorem witness_LaunchFabricResendsAndItsLinks : ((links [false, true]).a.weir.linkUp.getD 0 false) = false ∧ (weir.a.weir.linkUp.getD 0 false) = true ∧ blockRead [] = none ∧
    (weir.a.weir.tx.find? fun t => t.link == 0 && t.lseq == 3) = none ∧
    ((unacknowledged 1).a.weir.tx.find? fun t => t.link == 0 && t.lseq == 3).any (fun b => b.tries == 1 && b.link == 0) = true ∧ (unacknowledged 1).a.weir.linkUp = [true, true] ∧
    (both (fun p => p.updWeir fun w => { w with linkUp := [true, false] }) (unacknowledged 1)).a.weir.linkUp.getD 1 false = false ∧
    ((unacknowledged 3).a.weir.tx.find? fun t => t.link == 0 && t.lseq == 3).any (fun b => b.tries == 3 && ofLe (b.bytes.take 1) != 3) = true ∧
    ((unacknowledged 3 (src := .head 5)).a.weir.tx.find? fun t => t.link == 0 && t.lseq == 3).any (fun b => b.tries == 3 && b.src == .head 5) = true ∧
    ((unacknowledged 3 (type := 3)).a.weir.tx.find? fun t => t.link == 0 && t.lseq == 3).any (fun b => ofLe (b.bytes.take 1) == 3) = true ∧
    ((unacknowledged 3).a.slot 7).alive = true ∧ weir.a.weir.tx = [] ∧ weir.a.weir.linkUp = [true, true] ∧
    ([true, true].set 0 false).any id = true ∧ ((links [false, true]).a.weir.linkUp.set 1 false).any id = false ∧ (links [false, true]).a.weir.linkUp.getD 1 false = true ∧
    ((links [false, true]).a.weir.linkUp.set 0 true).all id = true ∧ ((links [false, false]).a.weir.linkUp.set 0 true).all id = false ∧
    weir.writes .a 0 0x1#4 Reg.LFAB_INJECT (w32 (0 + 2)) ∧ weir.writes .a 0 0x1#4 Reg.LFAB_INJECT (w32 (1 + 2)) := by
  decide +kernel

/-- The same statement: good blocks, of a holder and of another plane, of a command that has ended, and the report of a start. -/
theorem witness_LaunchFabricResendsAndItsLinks_blocks :
    (blockRead launchBlock).any (fun b => b.type == 1 && b.lseq == 0 && b.flags / 8 % 2 == 0 && b.slot == 7 && b.seq == 9 && b.stamp == 10300) = true ∧
    weir.fs.au.actsAt .a weir.now = true ∧ weir.fs.au.actsAt .b weir.now = false ∧ weir.fs.ended 7 9 weir.now = none ∧
    (blockRead startBlock).any (fun b => b.type == 0x82 && b.flags / 8 % 2 == 0 && ofLe (b.payload.take 1) == 2 && b.lseq == 0 && b.slot == 7 && b.seq == 9 &&
      ofLe (slice b.payload 8 8) == 8192) = true ∧ weir.fs.out = [] ∧ weir.a.weir.lseqRx.getD 0 0 = 0 ∧
    (let s := slot7 fun x => { x with st := .launched, launch := 8192, path := 5 }; (s.a.slot 7).st = .launched ∧ (s.a.slot 7).seq = 9 ∧
      8192 ≤ (s.a.slot 7).launch + allowance s.a.cfg (s.a.slot 7).path) := by decide +kernel

theorem witness_AbortsAndDoneClears : weir.writes .a 0 0x1#4 Reg.CMD_ABORT (w32 7) ∧ weir.writes .b 0 0x1#4 Reg.CMD_ABORT (w32 7) ∧ weir.b.isActive = false ∧ weir.a.isActive = true ∧
    (weir.a.slot 7).st = .free ∧ ((slot7 id).a.slot 7).st = .booked ∧ (slot7 id).a.weir.books = [] ∧ ((slot7 fun x => { x with st := .sent }).a.slot 7).st = .sent ∧
    ((slot7 fun x => { x with st := .sent, tag := 5 }).a.slot 7).tag = 5 ∧ (onA (fun p => { p.wr Reg.ACCESS_HRP_ALLOW_LO 0xFFFFFFFF with applied := [(Reg.TENANT_T 6, 0x10000)] }) weir).writes .a 6 0x1#4 Reg.CMD_ABORT (w32 7) ∧
    weir.a.weir.linkUp.getD 1 false = true ∧ (both (fun p => p.updWeir fun w => { w with linkUp := [false, false] }) (slot7 fun x => { x with st := .sent })).a.weir.linkUp = [false, false] ∧
    ((slot7 fun x => { x with st := .launched }).a.slot 7).st = .launched ∧ (slot7 fun x => { x with st := .sent, aborters := [0, 8] }).a.phase = .ready ∧
    ((slot7 fun x => { x with st := .sent, aborters := [0, 8] }).a.slot 7).aborters = [0, 8] ∧ State.reset.a.phase ≠ .ready ∧
    weir.b.follows = true ∧ ((slot7 id).b.slot 7).alive = true ∧ weir.a.follows = false ∧
    weir.writes .a 0 0xF#4 (Reg.CMD_DONE 0) (w32 (2 ^ 7)) ∧ weir.writes .a 0 0xF#4 (Reg.CMD_DONE 7) (w32 (2 ^ 31)) ∧
    (let x := (slot7 fun x => { x with st := .delivered }).a.slot 7; x.st.final = true ∧ x.scan = none ∧ x.alive = false) ∧ 7 < 256 - min 192 weir.a.weir.scanSlots ∧
    ((slot7 fun x => { x with st := .delivered, scan := some 0 }).a.slot 7).scan ≠ none ∧ ((slot7 id).a.slot 7).st.final = false := by decide +kernel

/-! ### Witnesses: metering (chapter 7) -/

theorem witness_ApportionedSharesSumToTheLoss : (List.replicate 63 (0 : Int)).length = 63 ∧ (∀ x ∈ List.replicate 63 (0 : Int), 0 ≤ x) ∧ (List.replicate 63 (0 : Int)).sum = 0 := by
  decide +kernel

/-- No block, a port block of another tick, and each block; a plane that does not run, one that has had the AC block at this tick, and channels of each kind. -/
theorem witness_MeterBlocksFaultsAndCalibration : (∀ k ∈ [0x0F, 0x14], ofLe (slice (leBytes 1 k) 0 1) = k) ∧
    (∀ k ∈ [0x10, 0x11, 0x12, 0x13], ofLe (slice (leBytes 1 k) 0 1) = k) ∧ ofLe (slice [0x13, 1] 1 1) = 1 ∧ ofLe (slice [0x13, 0] 1 1) = base.now % 16 ∧
    base.a.phase = .ready ∧ State.reset.a.phase ≠ .ready ∧ base.a.meter.got.contains 0x10 = false ∧
    (onA fun p => { p with meter := { p.meter with got := [0x10] } }).a.meter.got.contains 0x10 = true ∧
    (0x105#12).toNat / 256 = 1 ∧ (0x200#12).toNat / 256 ≠ 1 ∧ base.a.meter.bad 0x100 = false ∧ base.a.meter.calFault.contains 0x100 = false ∧ base.a.meter.faults.contains 0x100 = false ∧
    (onA fun p => { p with meter := { p.meter with faults := [0x105] } }).a.meter.faults.contains 0x105 = true := by
  decide +kernel

def accounting (f : Plane → Plane) : State := both fun p => f { p with acct := { p.acct with running := true } }

/-- The first interval ends at one second. -/
theorem witness_IntervalsCloseAndPulsesRun :
    (let s := accounting (atSec 1); s.a.acct.running = true ∧ s.now % 4096 = 0 ∧ s.a.acct.org + (s.a.acct.idx + 1) * 1000000000 ≤ s.a.tt s.now) ∧
    base.a.acct.running = false ∧ (accounting id).a.tt base.now < (accounting id).a.acct.org + ((accounting id).a.acct.idx + 1) * 1000000000 ∧
    (let s := onField fun f => { f with pulses := [(0, { queued := 1 }), (7, { active := true, queued := 1 })] }
     (s.fs.pulse 0).active = false ∧ 0 < (s.fs.pulse 0).queued ∧ (s.fs.pulse 0).until_ ≤ s.ttNow ∧ (s.fs.pulse 7).active = true ∧ (s.fs.pulse 7).until_ ≤ s.ttNow) ∧
    (let s := onField fun f => { f with pulses := [(0, { queued := 1, until_ := 10 ^ 12 })] }; s.ttNow < (s.fs.pulse 0).until_) := by decide +kernel

/-! ### Witnesses: redundancy (chapter 10) -/

def digests : State := onA fun p => p.updRed fun r => { r with mine := [(0, 7936, 7)], peer := [(1, 0, 7)] }
/-- A's scan has overrun at a stamp before now. -/
def overrun : State := onA fun p => { p with scan := { p.scan with consec := 1 } }
/-- A mismatch is being judged, with PLANE_FLT marks of A and B as given and the other plane in the role. -/
def judged (a b : Nat) (ro : Role) : State :=
  onA (fun p => (p.wr Reg.FAULT_PLANE_FLT a).updRed fun r => { r with judging := true }) (onB fun p => (p.wr Reg.FAULT_PLANE_FLT b).updRed fun r => { r with role := ro })

/-- A digest of the same value, of another, of an image that the plane overran, and of a plane that does not run; one missing at its 256th tick, and one not yet. -/
theorem witness_DigestsAndTheSyncLink : base.a.phase = .ready ∧ State.reset.a.phase ≠ .ready ∧
    (digests.a.red.mine.find? fun e => e.1 == 0 && e.2.1 == 7936) = some (0, 7936, 7) ∧ (7 : Nat) ≠ (8 : Word).toNat ∧ digests.a.overran 7936 digests.now = false ∧
    (overrun.a.overran 7936 overrun.now = true ∧ (overrun.a.red.mine.find? fun e => e.1 == 0 && e.2.1 == 7936) = none) ∧
    (digests.a.red.peer.any fun e => e.1 == 1 && e.2.1 == 0) = true ∧ ((digests.a.red.peer.any fun e => e.1 == 0 && e.2.1 == 7936) = false ∧ 7936 + 256 ≤ digests.now) ∧
    digests.now < 7937 + 256 ∧ base.b.red.syncUp = true ∧ (onB (onRed fun r => { r with syncUp := false })).b.red.syncUp = false ∧ base.bothRun ∧
    base.b.red.role = .standby ∧ (onB offLine).b.red.role ≠ .standby ∧ (onA offLine (onAu fun u => { u with holder := none })).active? = none := by decide +kernel

/-- The same statement: each outcome, and the standby's failure alone. -/
theorem witness_DigestsAndTheSyncLink_judged : (∀ s ∈ [base, judged 0 0 .standby, judged 1 0 .standby, judged 1 0 .resync, judged 1 1 .standby, judged 0 1 .standby], s.active? = some .a ∧ s.bothRun) ∧
    base.a.selfPass = true ∧ base.b.selfPass = true ∧ (judged 0 0 .standby).a.red.judging = true ∧ (judged 1 0 .standby).a.selfPass = false ∧ (judged 1 0 .standby).b.selfPass = true ∧
    (judged 1 0 .resync).b.red.role = .resync ∧ (judged 1 1 .standby).b.selfPass = false ∧ (judged 0 1 .standby).a.selfPass = true := by decide +kernel

def out : State := onB offLine
def phaseIs (n : Nat) (cut : Nat) : State := onB (fun p => { p.updRed (fun r => { r with role := .resync, phase := n, joinCut := some cut }) with scan := { p.scan with st := .running, digest := 7 } })
def levelOf (p : Plane) : Nat := (if p.boot.running = 0 then p.boot.fwA else p.boot.fwB).step
def atScan (s : State) : State := { s with now := 20480 }

theorem witness_JoiningTakesTheActivePlanesState : base.b.red.role = .standby ∧
    (∀ s ∈ [out, onB (fun p => { p with boot := { p.boot with fwA := { p.boot.fwA with step := 9 } } }) out], s.b.phase = .ready ∧ s.b.start.pfAt = none ∧ s.b.start.restart = none ∧
      s.b.healthy ∧ s.b.red.role = .offline ∧ s.b.red.phase = 0 ∧ s.b.red.syncUp = true ∧ s.a.isActive = true) ∧ levelOf out.b = levelOf out.a ∧
    levelOf (onB (fun p => { p with boot := { p.boot with fwA := { p.boot.fwA with step := 9 } } }) out).b ≠ levelOf out.a ∧
    (onB (onRed fun r => { r with role := .resync, retryAt := some 0 })).b.red.retryAt = some 0 ∧ 0 ≤ base.ttNow ∧ base.b.red.retryAt = none ∧
    ((phaseIs 1 0).now % 2048 = 0 ∧ (phaseIs 1 0).b.phase = .ready ∧ (phaseIs 1 0).b.red.role = .resync ∧ (phaseIs 1 0).b.red.phase = 1) ∧
    ((phaseIs 2 8192).b.red.joinCut = some 8192 ∧ (phaseIs 2 8192).b.red.role = .resync ∧ (phaseIs 2 8192).b.red.phase = 2 ∧ 8192 ≤ (phaseIs 2 8192).now) ∧
    (phaseIs 2 8193).now < 8193 ∧ (let s := atScan (phaseIs 3 8192)
      s.b.red.role = .resync ∧ s.b.red.phase = 3 ∧ s.now % 2048 = 0 ∧ isScanHalf s.b.cfg (halfOf s.now) = true ∧ s.b.joinDigest = (7 : Word).toNat ∧ s.b.joinDigest ≠ (8 : Word).toNat) ∧
    ((phaseIs 3 8192).b.scan.st = .running ∧ isScanHalf base.b.cfg (halfOf (phaseIs 3 8192).now) = false) := by decide +kernel

/-- The LFAB links of both planes are up. -/
def linked (s : State) : State := both (fun p => { p with weir := { p.weir with linkUp := [true, true] } }) s
/-- A well-formed LEASE block of A or of B with the operation, and the stamp that it carries. -/
def reads (b : List Byte) (op owner : Nat) : Bool := (blockRead b).any fun f => f.type == 4 && f.flags / 2 % 2 == owner && ofLe (slice f.payload 0 1) == op
def stampOf (b : List Byte) : Option Nat := (blockRead b).map fun f => ofLe (slice f.payload 8 8)
def vacant (g : Option Nat) : State := onA offLine (onAu fun u => { u with holder := none, guardEnd := g })
def overlap (e : Nat) : State := onAu fun u => { u with mode := 1, old := some .b, overlapEnd := e }
/-- A is the holder in a mode, and the last RELEASE is as given. -/
def unit (mode : Nat) (old : Option PlaneId) (rel : Option (PlaneId × Nat) := none) : State := onAu fun u => { u with mode := mode, old := old, release := rel }

/-- A's and B's RENEW, CLAIM and RELEASE blocks, of a later stamp and of now, and one that is no block; the unit with A as its holder in both modes, alone and beside B,
and vacant with a guard running, just over and with none. -/
theorem witness_TheAuthorityUnitGrantsOneLease :
    (∀ op ∈ [1, 2, 3], reads (base.a.leaseBlock op 0 8192 12288 []) op 0 = true ∧ reads (base.b.leaseBlock op 0 8192 8192 []) op 1 = true) ∧
    stampOf (base.a.leaseBlock 3 0 8192 12288 []) = some 12288 ∧ stampOf (base.a.leaseBlock 3 0 8192 8192 []) = some 8192 ∧ blockRead [] = none ∧
    (base.fs.au.holder = some .a ∧ base.fs.au.old = none ∧ base.fs.au.mode = 0 ∧ base.fs.au.release = none) ∧
    ((unit 1 none).fs.au.holder = some .a ∧ (unit 1 none).fs.au.mode ≠ 0 ∧ (unit 1 none).fs.au.old = none ∧ (unit 1 (some .b)).fs.au.old = some .b) ∧
    (∀ g ∈ [none, some 8192], (vacant g).fs.au.holder = none ∧ (vacant g).fs.au.guardEnd = g) ∧ ((vacant (some 8193)).fs.au.guardEnd = some 8193 ∧ base.now < 8193) ∧
    ((vacant (some 8192)).b.phase = .ready ∧ (vacant (some 8192)).b.red.role = .standby ∧ (vacant (some 8192)).b.red.ownExpired = false ∧ (linked (vacant (some 8192))).b.liveLink.isSome = true) := by
  decide +kernel

/-- The same statement: leases and overlaps at their ends and a tick before, and a standby with no renewal for 1,536 ticks in OVERLAP mode. -/
theorem witness_TheAuthorityUnitGrantsOneLease_ends :
    (onAu fun u => { u with expiry := 8192 }).fs.au.expiry ≤ base.now ∧ base.now < (onAu fun u => { u with expiry := 8193 }).fs.au.expiry ∧
    (let u := (onAu fun u => { u with old := some .b, oldExpiry := 8192 }).fs.au; u.old = some .b ∧ u.oldExpiry ≤ base.now ∧ u.holder = some .a) ∧
    (let u := (onAu fun u => { u with old := some .b, oldExpiry := 9000, expiry := 8192 }).fs.au; u.holder = some .a ∧ u.expiry ≤ base.now ∧ u.old = some .b ∧ base.now < u.oldExpiry) ∧
    ((overlap 0).fs.au.old = some .b ∧ (overlap 0).fs.au.overlapEnd ≤ (overlap 0).ttNow) ∧ (overlap 1).ttNow < (overlap 1).fs.au.overlapEnd ∧
    (let p := (overlap 0).b; p.phase = .ready ∧ p.red.role = .standby ∧ (overlap 0).fs.au.mode = 1 ∧ p.red.lastRenewed + 1536 ≤ base.now ∧ p.red.claiming = false ∧ (linked (overlap 0)).b.liveLink.isSome = true) := by
  decide +kernel

def report (event holder : Nat) : List Byte := leBytes 1 0 ++ leBytes 1 event ++ leBytes 1 holder ++ leBytes 5 0 ++ leBytes 8 12345 ++ leBytes 8 8448
def seen (h : Nat) : State := both (onRed fun r => { r with viewHolder := h })
def mayClaim (v : Nat) (zeroed : Bool) (tt : Nat) : State :=
  both (fun p => { (p.updRed fun r => { r with role := .offline, validAt := some v }).updMpe (fun m => { m with timeValid := true, tt16 := 16 * tt }) with start := { p.start with zeroed := zeroed, validTt := some 0 } })
    (onAu fun u => { u with holder := none })
def drillAt (d : Nat) : State := both fun p => p.wr64 Reg.RED_DRILL_AT d
def drilling (d : Nat) : State := both (onRed fun r => { r with drill := some d })

/-- An active plane and one that is not, with a link and with none; every report, the grants and ends that change a role with what was seen before; the claims at the
first stamp that R255 and R425 allow and one before. -/
theorem witness_PlanesFollowTheLease : base.b.isActive = false ∧ base.a.isActive = true ∧ (linked base).a.liveLink.isSome = true ∧ (linked base).a.isActive = true ∧ base.a.liveLink.isSome = false ∧
    (∀ e ∈ [1, 2, 3, 4, 5, 6], ofLe (slice (report e 1) 1 1) = e ∧ ofLe (slice (report e 1) 2 1) = 1) ∧ ((seen 0).plane (seen 0).lead).red.viewHolder ≠ 1 + 1 ∧
    (ofLe (slice (report 2 3) 2 1) = 3 ∧ ((seen 1).plane (seen 1).lead).red.viewHolder = PlaneId.a.num + 1) ∧
    (ofLe (slice (report 5 0) 2 1) = 0 ∧ (seen 1).a.isActive = true ∧ (seen 1).b.red.role = .standby ∧ (seen 1).a.red.yield_ = none) ∧
    (((seen 3).plane (seen 3).lead).red.viewHolder = 3 ∧ ofLe (slice (report 4 2) 2 1) = PlaneId.b.num + 1) ∧
    (∀ zeroed ∈ [false, true], let p := (mayClaim 0 zeroed 0).a; p.phase = .ready ∧ p.start.pfAt = none ∧ p.start.restart = none ∧ p.red.role = .offline ∧ p.healthy ∧ p.red.ownExpired = false ∧
      p.red.noAuth = false ∧ (mayClaim 0 zeroed 0).fs.au.holder = none ∧ p.mpe.timeValid = true ∧ p.start.zeroed = zeroed ∧ p.liveLink.isSome = false ∧ (linked (mayClaim 0 zeroed 0)).a.liveLink.isSome = true) ∧
    ((mayClaim 0 false 0).b.red.validAt = some 0 ∧ (mayClaim 8192 false 0).a.red.validAt = some 8192 ∧ base.now < 8192 + 8 * 2048) ∧
    ((mayClaim 0 true (60 * 10 ^ 9)).a.start.validTt = some 0 ∧ 0 + 60000000000 ≤ (mayClaim 0 true (60 * 10 ^ 9)).a.tt base.now ∧ (mayClaim 0 true 0).a.tt base.now < 0 + 60000000000) ∧
    (onField (fun f => { f with au := base.fs.au }) (mayClaim 0 true 0)).fs.au.holder ≠ none := by decide +kernel

/-- The same statement: a drill eight half-cycles on and one that is too near, on the active plane and on the standby; one that may be cancelled, one too late and none; in the
half-cycle before D, with no standby in step; at D with its RELEASE waiting. -/
theorem witness_PlanesFollowTheLease_drill :
    ((drillAt 24576).writes .a 0 0x1#4 Reg.RED_DRILL_CTRL 1 ∧ (drillAt 24576).a.rd64 Reg.RED_DRILL_AT = 24576 ∧ 24576 % 2048 = 0 ∧ base.now + 8 * 2048 ≤ 24576 ∧ 22528 < base.now + 8 * 2048 ∧
      (drillAt 24576).writes .b 0 0x1#4 Reg.RED_DRILL_CTRL 1) ∧
    ((drilling 10241).writes .a 0 0x1#4 Reg.RED_DRILL_CTRL 2 ∧ (drilling 10241).a.red.drill = some 10241 ∧ base.now + 2048 < 10241 ∧ 10240 ≤ base.now + 2048 ∧
      (drilling 10241).writes .b 0 0x1#4 Reg.RED_DRILL_CTRL 2 ∧ base.writes .a 0 0x1#4 Reg.RED_DRILL_CTRL 2 ∧ base.a.red.drill = none) ∧
    ((drilling 10240).active? = some .a ∧ (drilling 10240).b.red.role = .standby ∧ base.now < 10240 ∧ (onB offLine (drilling 10240)).b.red.role ≠ .standby) ∧
    (let s := onField (fun f => { f with au := { f.au with release := some (.a, 8192) } }) (drilling 8192)
     s.active? = some .a ∧ 8192 ≤ s.now ∧ s.b.red.role = .standby ∧ s.fs.au.holder = some .a ∧ s.fs.au.old = none ∧ s.fs.au.release = some (.a, 8192) ∧ (linked s).b.liveLink.isSome = true) := by
  decide +kernel

/-! ### Witnesses: the Scan Engine and the Loop Engine (chapters 8 and 9) -/

def onScan (f : ScanSt → ScanSt) (s : State := base) : State := both (fun p => { p with scan := f p.scan }) s
/-- A header of a program of `n` blocks, a program of one COPY block, and one of 25,000 blocks of type 0x1B. -/
def progHead (n : Nat) : List Byte :=
  leBytes 4 0x4E43534B ++ leBytes 2 1 ++ leBytes 2 1 ++ leBytes 4 n ++ leBytes 4 0 ++ leBytes 4 90030 ++ leBytes 4 0 ++ leBytes 8 99 ++ List.replicate 608 0
def prog : List Byte := progHead 1 ++ leBytes 1 1 ++ leBytes 1 0 ++ leBytes 3 0x100000 ++ leBytes 3 0x100001 ++ leBytes 3 0x100002 ++ leBytes 5 0
def progLong : List Byte := progHead 25000 ++ List.replicate 400000 0x1B
def image (c : Bool) : ScanImage := { start := 8192, complete := c }

/-- Each command next in an engine that is empty, runs and is halted; a check that passed and one that failed; a program installed and none; GO and a change item on the
active plane, with a lower word held and with none, and on the standby. -/
theorem witness_ScanEngineFollowsItsCommands : base.a.phase = .ready ∧ base.a.scan.st = .empty ∧ base.a.scan.cmd.head? = none ∧
    (∀ c ∈ [1, 2, 3, 4], ∀ st ∈ [ScanState.empty, .stopped, .running, .halted], let x := (onScan fun x => { x with cmd := [c], st := st, prog := some prog }).a.scan
      x.cmd.head? = some c ∧ x.st = st ∧ x.prog = some prog) ∧ base.a.scan.prog = none ∧
    (let x := (onScan fun x => { x with st := .stopped, check := some (1, 0), checking := some prog }).a.scan; x.check = some (1, 0) ∧ x.st = .stopped) ∧
    (let x := (onScan fun x => { x with check := some (0x13, 5) }).a.scan; x.check = some (0x13, 5) ∧ 0x13 ≠ 1 ∧ x.st = .empty) ∧ base.a.scan.check = none ∧
    progWcet prog ≤ scanLimit (scanPeriod base.a.cfg) ∧ base.a.isActive = true ∧ base.b.isActive = false ∧ (0xF#4) ≠ 0 ∧
    (∀ n ∈ [0, 127], base.writes .a 0 0x3#4 Reg.SCAN_CHG_CTRL (w32 (n + 256)) ∧ base.writes .b 0 0x3#4 Reg.SCAN_CHG_CTRL (w32 (n + 256))) ∧
    base.writes .a 0 0xF#4 (Reg.SCAN_CHG 63 + 4) 1 ∧ base.writes .b 0 0xF#4 (Reg.SCAN_CHG 63 + 4) 1 ∧ (base.a.heldLow 0 (Reg.SCAN_CHG 63)).1 = 0 ∧
    (onA fun p => p.updPath 0 fun x => { x with held := [(Reg.SCAN_CHG 63, (0xFFFFFFFF#32, 5#32))] }).a.heldLow 0 (Reg.SCAN_CHG 63) = (0xFFFFFFFF#32, 5#32) := by decide +kernel

/-- SCAN.CFG with PERIOD 1. -/
def everyHalf : State := both fun p => { p with applied := [(Reg.SCAN_CFG, 1)] }

theorem slice_behind (h : List Byte) (n k : Nat) (a : Byte) (hk : k < n) : slice (h ++ List.replicate n a) (h.length + k) 1 = [a] := by
  simp [slice, List.getD_eq_getElem?_getD, hk]

theorem slice_front (h t : List Byte) (o n : Nat) (hn : o + n ≤ h.length) : slice (h ++ t) o n = slice h o n := by
  refine List.map_congr_left fun k hk => ?_
  rw [List.getD_eq_getElem?_getD, List.getElem?_append_left (by have := List.mem_range.mp hk; omega), List.getD_eq_getElem?_getD]

/-- The same statement: a program whose worst case passes the limit at a period of one half-cycle. -/
theorem witness_ScanEngineFollowsItsCommands_limit : scanLimit (scanPeriod everyHalf.a.cfg) < progWcet progLong := by
  have hl : (progHead 25000).length = 640 := by decide +kernel
  have hb : progBlocks progLong = 25000 := by
    rw [progBlocks, progN, progLong, slice_front _ _ _ _ (by omega)]; decide +kernel
  have ht : ∀ i ∈ List.range 25000, blkCost (progBlk progLong i).type = 600 := by
    intro i hi
    have hi := List.mem_range.mp hi
    have : slice progLong (640 + 16 * i + 0) 1 = [0x1B#8] := by
      have := slice_behind (progHead 25000) 400000 (16 * i) 0x1B#8 (by omega)
      rwa [hl] at this
    simp only [progBlk]
    rw [this]; rfl
  rw [progWcet, hb, List.map_congr_left ht, List.map_const', List.sum_replicate_nat, List.length_range]
  decide +kernel

/-- Off a scan boundary; at one, in a stopped engine and in one that runs: with no image, with one not complete for the third and the fourth time, with a complete one, and
at a start, cold, warm with the same program and warm with another whose state was recalled. A complete image, due to be committed and not, at a half-cycle boundary, with a kind 10 point. -/
theorem witness_ScansRunAtTheirBoundaries : ({ base with now := 8193 } : State).now % 2048 ≠ 0 ∧ isScanHalf base.a.cfg (halfOf base.now) = false ∧
    (let s := atScan base; s.now % 2048 = 0 ∧ s.a.live = true ∧ s.a.dataPath = true ∧ isScanHalf s.a.cfg (halfOf s.now) = true ∧ s.a.scan.st ≠ .running ∧ s.a.scan.image = none) ∧
    (let x := (atScan (onScan fun x => { x with st := .running, prog := some prog })).a.scan; x.st = .running ∧ x.start = none ∧ x.image = none) ∧
    (∀ n ∈ [2, 3], let x := (atScan (onScan fun x => { x with st := .running, image := some (image false), consec := n })).a.scan
      x.st = .running ∧ x.start = none ∧ x.image = some (image false) ∧ (image false).complete = false ∧ x.consec = n) ∧
    (let x := (atScan (onScan fun x => { x with st := .running, image := some (image true) })).a.scan; x.image = some (image true) ∧ (image true).complete = true) ∧
    (∀ warm ∈ [false, true], let x := (onScan fun x => { x with st := .running, start := some warm, prog := some prog, stateId := some 99 }).a.scan
      x.start = some warm ∧ x.image = none ∧ x.stateId = some (progId (x.prog.getD []))) ∧
    (let x := (onScan fun x => { x with st := .running, start := some true, prog := some prog, stateId := some 98, recalled := true }).a.scan
     x.stateId = some 98 ∧ 98 ≠ progId (x.prog.getD []) ∧ x.recalled = true) ∧
    (base.a.scan.commitTt + max 1 (base.a.cfgF Reg.SCAN_CFG 31 24) * 1000000000 ≤ (onMpe fun m => { m with tt16 := 16 * 10 ^ 12 }).a.tt base.now ∧
      ¬ base.a.scan.commitTt + max 1 (base.a.cfgF Reg.SCAN_CFG 31 24) * 1000000000 ≤ base.a.tt base.now) ∧
    base.now % 2048 = 0 ∧ base.a.phase = .ready ∧ base.a.isActive = true ∧ base.b.red.role = .standby ∧ (out.b.isActive = false ∧ out.b.red.role ≠ .standby) ∧
    ((both fun p => { p with applied := [(pmWord 8191 0, 10)] }).a.pm 8191).kind = 10 := by decide +kernel

def looping (l : Nat) (f : LoopSt → LoopSt) : State := both fun p => { p.setLoop l (f (p.loop l)) with applied := [(loopRec l 0, 3), (loopRec l 2, 100), (loopRec l 3, 0xFFFFFF9C), (loopRec l 4, 500)] }
def swapWaits : State := onA fun p => p.setLoop 0 { swap := some false }
def swapQueued : State := onA fun p => { p with cfgQ := [{ addr := loopCtlAddr 0, mask := 0xF, data := 1, grp := 0 }], grps := [{ id := 0, rel := some 4 }], nextGrp := 1 }

/-- Not running and away from the boundaries; a loop that samples in each of its states, and one that does not; 24 ticks later, with the third and the fourth stall. -/
theorem witness_LoopsSampleAndTakeTheirRecords : ({ base with a := { base.a with dataPath := false } } : State).a.dataPath = false ∧ ({ base with now := 8193 } : State).now % 1024 ∉ [0, 24] ∧
    (∀ l ∈ [0, 511], ∀ st ∈ [LoopState.off, .refused, .hold, .auto, .manual], ∀ r ∈ [false, true], let s := looping l fun x => { x with st := st, rearm := r, consec := 4 }
      s.a.phase = .ready ∧ s.a.dataPath = true ∧ s.a.start.pfAt = none ∧ s.now % 1024 = 0 ∧ loopSamples s.a.cfg l (s.now / 1024) = true ∧ (s.a.loop l).st = st ∧
      (loopRecOf s.a.cfg l).mode = true ∧ (loopRecOf s.a.cfg l).lo ≤ (loopRecOf s.a.cfg l).hi ∧ (s.a.loop l).call = none ∧ (s.a.loop l).rearm = r) ∧
    loopSamples base.a.cfg 0 (base.now / 1024) = false ∧
    (∀ c ∈ [2, 3], ∀ st ∈ [false, true], let s : State := { looping 0 (fun x => { x with st := .auto, consec := c, next := some { at_ := 8192, out := 77, stalled := st } }) with now := 8216 }
      s.now % 1024 = 24 ∧ (s.a.loop 0).next = some { at_ := 8192, out := 77, stalled := st } ∧ (s.a.loop 0).consec = c ∧ (s.a.loop 1).next = none) := by decide +kernel

/-- The same statement: a record and a section, good and refused, on the active plane and on the standby, with room in the queue and with none. -/
theorem witness_LoopsSampleAndTakeTheirRecords_records : base.a.isActive = true ∧ base.b.isActive = false ∧ fullQueue.a.isActive = true ∧ fullQueue.a.cfgQ.length = 1024 ∧
    (∀ s ∈ [base, fullQueue], s.writes .a 0 0xF#4 (Reg.LOOP_LCFG 5) 0 ∧ loopReason s.a.rd s.a.cfg 0 (fun k => s.a.rd (loopRec 0 k)) = 0 ∧ s.writes .a 0 0xF#4 Reg.LOOP_SHIFTS 0 ∧
      s.a.sectionReason 0 0 0 = 0) ∧ (base.a.path 0).bufs = [] ∧
    base.writes .a 0 0xF#4 (Reg.LOOP_LCFG 5) 0x20000000 ∧ loopReason base.a.rd base.a.cfg 0 (fun k => if k = 5 then 0x20000000#32 else base.a.rd (loopRec 0 k)) ≠ 0 ∧
    base.writes .a 0 0xF#4 Reg.LOOP_SHIFTS 0x80000000 ∧ base.a.sectionReason 0 0 0x80000000 ≠ 0 ∧ base.writes .b 0 0xF#4 (Reg.LOOP_LCFG 5) 0 ∧ base.writes .b 0 0xF#4 Reg.LOOP_SHIFTS 0 := by
  decide +kernel

/-- The same statement: the commands of a loop, with no SWAP waiting, with one waiting for its sample, with one in a released group, and with HOLD set. -/
theorem witness_LoopsSampleAndTakeTheirRecords_commands : (∀ v ∈ [1, 3, 4, 8], ∀ s ∈ [base, swapWaits, swapQueued, holding], s.writes .a 0 0x1#4 Reg.LOOP_L_CTRL (w32 v)) ∧
    (∀ v ∈ [1, 3, 4, 8], base.writes .b 0 0x1#4 Reg.LOOP_L_CTRL (w32 v)) ∧ (base.a.loop 0).swap.isSome = false ∧ base.a.cfgQ = [] ∧ (swapWaits.a.loop 0).swap.isSome = true ∧
    (swapQueued.a.cfgQ.any fun q => q.addr == loopCtlAddr 0 && bit (q.mask &&& q.data) 0 && swapQueued.a.grps.any fun g => g.id == q.grp && g.rel.isSome) = true ∧
    base.a.rdF Reg.SYS_CFG_CTRL 0 0 = 0 ∧ swapQueued.a.cfgQ.length < 1024 ∧ holding.a.rdF Reg.SYS_CFG_CTRL 0 0 = 1 := by decide +kernel

/-! ### Witnesses: the frame network (chapter 11) -/

def beBytes (n v : Nat) : List Byte := (leBytes n v).reverse
def frame (dst src : Nat) (rest : List Byte) : List Byte := let b := beBytes 6 dst ++ beBytes 6 src ++ rest; b ++ leBytes 4 (crc32 b)
def pad (n : Nat) : List Byte := List.replicate n 0
def plainFrame : List Byte := frame 0x020000000002 0x020000000001 (pad 48)
def groupFrame : List Byte := frame 0x020000000002 0x030000000001 (pad 48)
def reservedFrame : List Byte := frame 0x0180C2000000 0x020000000001 (pad 48)
def delayFrame : List Byte := frame 0x0180C200000E 0x020000000001 (beBytes 2 0x88F7 ++ [2] ++ pad 45)
def controlFrame (op : Nat := 1) : List Byte := frame 0x0180C2000001 0x020000000001 (beBytes 2 0x8808 ++ beBytes 2 op ++ pad 44)
def taggedFrame (vid : Nat) : List Byte := frame 0x020000000002 0x020000000001 (beBytes 4 (0x81000000 + vid) ++ pad 46)
/-- Eight ports of T0, whose VID is 1, with their links up, and the four uplinks, which carry T0. -/
def wired : State :=
  onField (fun x => { x with ports := (List.range 8).map fun n => (n, { (x.port n) with link := true }), fab := { x.fab with fwd := [(1, 4)] } })
    (both fun p => { p with applied := [(Reg.TENANT_T 0, 0x10001), (Reg.PORTG_CFG 0 0, 1), (Reg.PORTG_CFG 0 1, 1), (Reg.UPL_TAGS_LO 0, 1), (Reg.UPL_TAGS_LO 3, 1)] })
def onFab (f : Fabric → Fabric) (s : State := base) : State := onField (fun x => { x with fab := f x.fab }) s

/-- Each drop in its order; PAUSE where it is negotiated, where it is not, and another control frame; a peer delay message; a frame to another reserved address and one of
another VLAN. -/
theorem witness_FramesAreCheckedLearnedAndForwarded : (pad 63).length < 64 ∧ 1522 < (pad 1523).length ∧ (plainFrame.length = 64 ∧ fcsOk plainFrame = true ∧ fcsOk (pad 63 ++ [1]) = false) ∧
    (((port 127 .powered fun x => { x with speed := 100 }).fs.port 127).speed = 100 ∧ (base.fs.port 127).speed ≠ 100 ∧ (127 : Fin 132).val < 128 ∧ 128 ≤ (131 : Fin 132).val) ∧
    (∀ f ∈ [controlFrame, controlFrame 2], 64 ≤ f.length ∧ f.length ≤ 1522 ∧ fcsOk f = true ∧ etherType f = 0x8808 ∧ (frameTag f).isSome = false) ∧ ofBe (slice controlFrame 14 2) = 1 ∧
    ofBe (slice (controlFrame 2) 14 2) ≠ 1 ∧ base.pauseOn 131 = false ∧ (onField fun f => { f with upl := [(3, { pauseOk := true })] }).pauseOn 131 = true ∧
    (fcsOk delayFrame = true ∧ 64 ≤ delayFrame.length ∧ ofBe (slice delayFrame 0 6) / 16 = 0x0180C200000 ∧ etherType delayFrame = 0x88F7 ∧ ofBe (slice (plain delayFrame) 14 1) % 16 = 2) ∧
    (fcsOk reservedFrame = true ∧ 64 ≤ reservedFrame.length ∧ etherType reservedFrame ≠ 0x8808 ∧ etherType reservedFrame ≠ 0x88F7 ∧ ofBe (slice reservedFrame 0 6) / 16 = 0x0180C200000) ∧
    (let f := taggedFrame 9; 64 ≤ f.length ∧ fcsOk f = true ∧ etherType f ≠ 0x8808 ∧ ofBe (slice f 0 6) / 16 ≠ 0x0180C200000 ∧ wired.ingress 127 f = none ∧ wired.ingress 131 f = none) := by
  decide +kernel

/-- The same statement: forwarding, from a port, and from an uplink that forwards the VLAN and one that does not; a source that is learned and one of a group; the destination
not known, learned and behind the same port. -/
theorem witness_FramesAreCheckedLearnedAndForwarded_forwarding :
    (∀ f ∈ [plainFrame, groupFrame], 64 ≤ f.length ∧ fcsOk f = true ∧ etherType f ≠ 0x8808 ∧ ofBe (slice f 0 6) / 16 ≠ 0x0180C200000 ∧ wired.ingress 0 f = some 1) ∧
    (wired.ingress 131 (taggedFrame 1) = some 1 ∧ Tab.get (fun _ => 0) wired.fs.fab.fwd 1 = 131 - 127 ∧ wired.ingress 128 (taggedFrame 1) = some 1 ∧ Tab.get (fun _ => 0) wired.fs.fab.fwd 1 ≠ 128 - 127 ∧
      64 ≤ (taggedFrame 1).length ∧ fcsOk (taggedFrame 1) = true) ∧
    (ofBe (slice plainFrame 6 6) / 2 ^ 40 % 2 = 0 ∧ ofBe (slice groupFrame 6 6) / 2 ^ 40 % 2 = 1 ∧ wired.fs.fab.fdb = []) ∧ (wired.egressOk 1 1 = true ∧ wired.egressOk 1 2 = false) ∧
    (let s := onFab (fun f => { f with fdb := [{ mac := 0x020000000002, vid := 1, port := 1, used := 0 }] }) wired
     (s.fs.fab.fdb.find? fun e => e.mac == 0x020000000002 && e.vid == 1) = some { mac := 0x020000000002, vid := 1, port := 1, used := 0 } ∧ s.egressOk 1 1 = true) := by decide +kernel

/-- The same statement: an egress that is free, one whose wire is busy, one that pause holds, and one whose gate is closed before a booked launch; the pause timers. -/
theorem witness_FramesAreCheckedLearnedAndForwarded_queues :
    (¬ wired.ttNow + wired.fs.tickNs ≤ wired.wireAt 1 ∧ wired.fs.pausedAt 1 = false ∧ (Tab.get (fun _ => []) wired.fs.fab.queues 1 : List Switched) = [] ∧
      wired.gateOpen 1 (wired.wireAt 1 + wired.fs.frameNs 1 68) = true) ∧
    (let s := onFab (fun f => { f with freeAt := [(1, 10 ^ 9)] }) wired; s.ttNow + s.fs.tickNs ≤ s.wireAt 1) ∧
    (onField (fun f => { f with phy := [(1, { pauseUntil := some 1 })] }) wired).fs.pausedAt 1 = true ∧
    (let s := both (fun p => { p with weir := { p.weir with books := [{ src := .slot 0, path := 1, tick := 8193, link := 0, blocks := 1 }] } })
         (onField (fun x => x.setPort 1 { x.port 1 with speed := 100 }) wired)
     s.gateOpen 1 (s.wireAt 1 + s.fs.frameNs 1 68) = false ∧ ¬ s.ttNow + s.fs.tickNs ≤ s.wireAt 1) ∧
    (onField fun f => { f with phy := [(0, { pauseRx := true })] }).pauseOn 0 = true ∧ (0x0000#16 = 0 ∧ (0xFFFF#16) ≠ 0) ∧
    (let s := onField fun f => { f with phy := [(0, { pauseUntil := some 0 }), (127, { pauseUntil := some 1 })], upl := [(0, { pauseUntil := some 0 }), (3, { pauseUntil := some 1 })] }
     s.ttNow < 1 ∧ 0 ≤ s.ttNow ∧ (s.fs.uplink 3).pauseUntil = some 1 ∧ (s.fs.uplink 0).pauseUntil = some 0 ∧ (Tab.get (fun _ => {}) s.fs.phy 127 : PhySt).pauseUntil = some 1) ∧
    (Tab.get (fun _ => {}) base.fs.phy 0 : PhySt).pauseUntil = none := by decide +kernel

/-- Uplink 3 with a module, its laser on. -/
def fitted (m : Sfp) (f : Uplink → Uplink := id) : State := onField (fun x => { x with upl := [(3, f { module := some m })] }) (both fun p => { p with applied := [(Reg.UPL_CTRL 3, 1)] })

/-- A sleeping port and a faulted fabric; each SPEED with a partner that it allows and one that it does not; a speed that falls and one that rises; a port with link and with none.
An uplink of each module that is able, with a fall of its mode, and one with no module; its link up and down. -/
theorem witness_LinksFiltersAndManagement : ((port 127 .sleep).fs.port 127).st = .sleep ∧ base.fabricFault = false ∧ (base.fs.port 127).st ≠ .sleep ∧
    (both fun p => p.wrF Reg.FAULT_FIELD_FLT 7 7 1).fabricFault = true ∧
    (let s := both fun p => { p with applied := [(Reg.SWF_PORT_CFG 0, 1), (Reg.SWF_PORT_CFG 127, 2)] }
     fld (s.cfg (Reg.SWF_PORT_CFG 0)) 1 0 = 1 ∧ fld (s.cfg (Reg.SWF_PORT_CFG 127)) 1 0 = 2 ∧ fld (s.cfg (Reg.SWF_PORT_CFG 1)) 1 0 = 0) ∧
    ((port 0 .disabled fun x => { x with rate := 1000 }).fs.port 0).rate = 1000 ∧ ((port 0 .disabled fun x => { x with rate := 100 }).fs.port 0).rate = 100 ∧
    (wired.fs.port 0).link = true ∧ (base.fs.port 0).link = false ∧
    (let s := fitted .tenG; (s.fs.uplink 3).module = some .tenG ∧ bit (s.cfg (Reg.UPL_CTRL 3)) 0 = true ∧ uplinkTenG s.fs s.cfg 3 = true ∧ s.fabricFault = false) ∧
    (let s := fitted .oneG; (s.fs.uplink 3).module = some .oneG ∧ uplinkTenG s.fs s.cfg 3 = false ∧ (s.fs.uplink 3).rate = true) ∧ (base.fs.uplink 3).module = none ∧
    (base.fs.uplink 3).link = false ∧ ((fitted .tenG fun u => { u with link := true }).fs.uplink 3).link = true := by decide +kernel

/-- The same statement: a wake filter with an active tag, with T63 and with a tag that is not active, on the active plane and on the standby; a plane's own address, over the service
port and over the uplinks. -/
theorem witness_LinksFiltersAndManagement_filters :
    (∀ k ∈ [0, 31], base.writes .a 0 0xF#4 (Reg.WAKE_CFG k) 0 ∧ base.writes .a 0 0xF#4 (Reg.WAKE_CFG k) 0x3F00 ∧ base.writes .a 0 0xF#4 (Reg.WAKE_CFG k) 0x500 ∧ base.writes .b 0 0xF#4 (Reg.WAKE_CFG k) 0) ∧
    base.a.isActive = true ∧ base.b.isActive = false ∧ tagActive base.a.rd (fld 0#32 13 8) = true ∧ fld 0#32 13 8 ≠ 63 ∧ fld 0x3F00#32 13 8 = 63 ∧ tagActive base.a.rd (fld 0x500#32 13 8) = false ∧
    base.a.phase = .ready ∧ BitVec.ofNat 32 (0xA9FE4700 + 10 + PlaneId.a.num) = 0xA9FE470A#32 ∧
    (let s := both fun p => { p with applied := [(Reg.SWF_IP_B, 0x0A000002), (Reg.SWF_MGMT, 0x10000)] }
     s.b.cfg (if PlaneId.b = .a then Reg.SWF_IP_A else Reg.SWF_IP_B) = 0x0A000002#32 ∧ bit (s.b.cfg Reg.SWF_MGMT) 16 = true) := by decide +kernel

/-! ### Witnesses: CAN (chapter 12) -/

def canOn : State := both fun p => { p with applied := (List.range 8).flatMap fun c => [(Reg.CAN_CTRL c, 1), (Reg.CAN_DIR c 0, 3)] }
def channel (f : CanChan → CanChan) (s : State := canOn) : State := onField (fun x => { x with can := (List.range 8).map fun c => (c, f (x.chan c)) }) s
def object (attempts : Nat) : TxObj := { st := .waiting, attempts := attempts, retry := 2, slot := 7, seq := 9 }

/-- A start within a command's allowance, too late, of an object that has started and of a standing one; a channel with nothing to offer, and one that does not send. Attempts 2
and 3 of an object with two retries, on a channel that sends and on one that does not; a bit error of an error-passive transmitter and an exempt one; TEC at 248 passes 255 with the
next error, and at 119 it does not reach error passive. -/
theorem witness_CanChannelsFollowTheBusAndTheirSupply : canSends base.cfg 0 = false ∧
    (∀ c ∈ [0, 7], ∀ l ∈ [8192, 0], let s := slot7 (fun x => { x with st := .launched, launch := l, path := 0x300 }) (channel fun c => { c with integrated := true, tx := [(0, object 0)] })
      canSends s.cfg c = true ∧ (s.fs.chan c).integrated = true ∧ s.fs.chanOff c = false ∧ s.fs.inGap s.now = false ∧ (s.fs.chan c).onBus = none ∧ (s.fs.chan c).offer = some 0 ∧
      ((s.fs.chan c).obj 0).started = false ∧ ((s.fs.chan c).obj 0).standing = false ∧ s.a.holds 7 9 = true ∧ (s.a.slot 7).st = .launched) ∧
    ((8192 : Nat) ≤ 8192 + allowance canOn.a.cfg 0x300 ∧ 0 + allowance canOn.a.cfg 0x300 < 8192) ∧
    (∀ x ∈ [{ object 1 with started := true }, { object 0 with standing := true }], ((channel fun c => { c with integrated := true, tx := [(0, x)] }).fs.chan 7).offer = some 0) ∧
    ((channel fun c => { c with integrated := true }).fs.chan 7).offer = none ∧
    (∀ n ∈ [2, 3], ∀ s ∈ [canOn, base], let s := channel (fun c => { c with integrated := true, onBus := some 0, tec := 248, tx := [(0, object n)] }) s
      (s.fs.chan 7).onBus = some 0 ∧ ((s.fs.chan 7).obj 0).attempts = n ∧ ((s.fs.chan 7).obj 0).retry = 2 ∧ (s.fs.chan 7).fc ≠ 2 ∧ 255 < (s.fs.chan 7).tec + 8) ∧ canSends canOn.cfg 7 = true ∧
    (let s := channel fun c => { c with onBus := some 0, fc := 1, tec := 128, tx := [(0, object 3)] }; (s.fs.chan 0).fc = 1 ∧ (4 : Fin 8).val = 4) ∧
    (let s := channel fun c => { c with onBus := some 0, tec := 119, rec_ := 127, tx := [(0, object 3)] }; (s.fs.chan 0).tec + 8 ≤ 127 ∧ (s.fs.chan 0).rec_ ≤ 127 ∧ (s.fs.chan 0).fc ≠ 2) := by
  decide +kernel

/-- The same statement: reception with REC below 128 and above, an object free, full and with a full shadow, and their release. -/
theorem witness_CanChannelsFollowTheBusAndTheirSupply_receiving : base.canHears 0 = false ∧
    (∀ n ∈ [127, 128], let s := channel (fun c => { c with integrated := true, rec_ := n }); s.canHears 7 = true ∧ (s.fs.chan 7).rec_ = n ∧ s.a.phase = .ready ∧
      rxWpos s.a.cfg 7 (s.a.rx 7) = some 2 ∧ ((s.a.rx 7).obj 2).full = false) ∧
    (∀ sh ∈ [none, some ({}, 5, 6)], let s := onA (fun p => { p with canRx := [(0, { objs := [(2, { full := true, shadow := sh }), (127, { full := true })] })] }) (channel fun c => { c with integrated := true })
     s.canHears 0 = true ∧ rxWpos s.a.cfg 0 (s.a.rx 0) = some 2 ∧ ((s.a.rx 0).obj 2).full = true ∧ ((s.a.rx 0).obj 2).shadow = sh ∧ ((s.a.rx 0).obj 127).full = true ∧ objTx s.a.cfg 0 127 = false ∧
      ((s.a.rx 0).obj 3).full = false ∧ s.writes .a 0 0xF#4 (Reg.CAN_RX_FULL 0 0) (w32 (2 ^ 2)) ∧ s.writes .a 0 0xF#4 (Reg.CAN_RX_FULL 0 3) (w32 (2 ^ 31))) := by decide +kernel

/-- The same statement: recovery and integration. -/
theorem witness_CanChannelsFollowTheBusAndTheirSupply_recovery :
    canOn.writes .a 0 0x2#4 (Reg.CAN_CTRL 7) 0x100 ∧ canOn.writes .b 0 0x2#4 (Reg.CAN_CTRL 7) 0x100 ∧ canOn.a.isActive = true ∧ canOn.b.isActive = false ∧
    (let s := channel fun c => { c with fc := 2, recovering := true, tec := 256 }; (s.fs.chan 7).fc = 2 ∧ (s.fs.chan 7).recovering = true) ∧ (canOn.fs.chan 7).recovering = false ∧
    bit (canOn.cfg (Reg.CAN_CTRL 7)) 0 = true ∧ bit (base.cfg (Reg.CAN_CTRL 7)) 0 = false := by decide +kernel

/-- A connector on and off, with its retry due and not, every other connector on and not, FIELD_FLT.CAN raised by the front end and not; no connector on. -/
theorem witness_CanChannelsFollowTheBusAndTheirSupply_supplies : (base.fs.supply 3).on = true ∧ base.fs.canFlt = false ∧
    (let s := onField fun f => { f with supplies := [(3, { retryAt := some 0, on := false, runs := 4 })] }
     (s.fs.supply 3).retryAt = some 0 ∧ 0 ≤ s.ttNow ∧ (s.fs.supply 3).on = false ∧ ∀ d < 4, d ≠ (3 : Fin 4).val → (s.fs.supply d).on = true) ∧
    (let s := onField fun f => { f with supplies := [(0, { retryAt := some 0, on := false, runs := 3 }), (1, { on := false }), (2, { on := false }), (3, { retryAt := some 1, on := false, runs := 4 })] }
     (s.fs.supply 0).retryAt = some 0 ∧ s.ttNow < 1 ∧ (s.fs.supply 3).retryAt = some 1 ∧ ∀ d < 4, (s.fs.supply d).on = false) ∧
    (∃ d < 4, (base.fs.supply d).on = true) := by decide +kernel

/-! ### Witnesses: keys, crypto, images (chapter 15 to 17) -/

def matter : KeyMat := { mat := [2], use := 1, imported := false, label := 0 }
def slotOf (st : KeyState) (staged : Bool) : KeySlot :=
  { st := st, type := 1, use := 0x1FF, key := if st == .active then some [1] else none, staged := if staged then some matter else none }
def withKeys (f : KeysSt → KeysSt) (s : State := base) : State := onA (fun p => { p with keys := f { p.keys with rootOk := true } }) s
def select (n : Nat) (s : State) : State := onA (fun p => ((p.pwr 0 Reg.KEY_K_SEL (w32 n)).pwr 0 Reg.KEY_K_ARG 1).pwr 0 Reg.KEY_K_USE 1) s
def keyAsk (op slot : Nat) : KeyReq := { path := 0, access := 0, op := op, slot := slot, type := 1, parent := 0, tag := 0, use := 1, label := [], payload := [] }
def slot9 (x : KeySlot) (n : Nat := 9) : State := select n (withKeys fun k => { k with slots := [(9, x), (10, { slotOf .active false with parent := 9 })] })
def asks (s : State) (op : Nat) : Bool := decide (s.writes .a 0 0x1#4 Reg.KEY_K_OP (w32 op)) && !s.a.keyRefused (s.a.keyReq 0 0 op)

/-- Each operation's state: refused for a key of another tag, begun or answered at once, waiting behind another. Slot 1 is the wrapped root's, slot 9 has a child. A slot that is
invalid, and an empty one. -/
theorem witness_KeyOperationsFollowTheirSlots :
    (let s := onA (fun p => { p with applied := [(Reg.TENANT_T 5, 0x10000)] }) (slot9 { slotOf .active false with tag := 5 })
     (∀ op ∈ [4, 5, 6, 7], (s.a.keyRefused { s.a.keyReq 0 0 op with access := 6 }) = true) ∧ s.a.keyRefused { s.a.keyReq 0 0 1 with access := 6 } = true) ∧
    (let s := slot9 (slotOf .empty false); asks s 1 = true ∧ s.a.keys.run = none ∧ s.a.keys.queue = [] ∧ (∀ op ∈ [1, 2], asks s op = true ∧ (s.a.keyBegin (s.a.keyReq 0 0 op)).2.isSome = true) ∧ asks s 3 = true ∧
      (s.a.keyBegin (s.a.keyReq 0 0 3)).2 = none ∧ asks s 7 = true ∧ (s.a.keySlot 9).st = .empty) ∧
    (let s := slot9 { slotOf .active true with verified := true }; ∀ op ∈ [4, 5], asks s op = true ∧ (s.a.keyBegin (s.a.keyReq 0 0 op)).2.isSome = true) ∧
    (let s := slot9 (slotOf .invalid true); asks s 6 = true ∧ asks s 7 = true ∧ (s.a.keySlot 9).st = .invalid) ∧
    (let s := slot9 (slotOf .active false); (∀ op ∈ [4, 5], asks s op = true ∧ (s.a.keyBegin (s.a.keyReq 0 0 op)) = (0x13, none))) ∧
    (let s := select 9 (withKeys fun k => { k with queue := [keyAsk 1 9], run := some (.stage matter) })
     (∀ op ∈ [1, 2, 3, 4, 5], asks s op = true) ∧ s.a.keys.run = some (.stage matter)) ∧
    (let s := slot9 (slotOf .active true); asks s 6 = true ∧ (s.a.keySlot 9).st ≠ .invalid ∧ (s.a.keySlot 9).staged ≠ none ∧ s.a.keys.run = none) ∧
    (let s := slot9 (slotOf .active false); asks s 6 = true ∧ (s.a.keySlot 9).staged = none ∧ asks s 7 = true ∧ (s.a.keySlot 9).st = .active ∧ s.a.descend 256 [9] = [10, 9]) ∧
    asks (slot9 (slotOf .active false) 1) 7 = true := by decide +kernel

/-- T5 owns a page of plane A. -/
def ownedBy5 (page : Nat) : State :=
  onA fun p => { ((p.wr Reg.ACCESS_HRP_ALLOW_LO 0xFFFFFFFF).wr (page * 0x1000 + 0x14) 5) with applied := [(Reg.TENANT_T 0, 0x10001), (Reg.TENANT_T 5, 0x10005)] }

/-- The same statement: ZERO, the engine's completion and the erasure. -/
theorem witness_KeyOperationsFollowTheirSlots_completing :
    base.writes .a 0 0xF#4 Reg.KEY_ZERO 0x5A31 ∧ base.writes .a 0 0xF#4 Reg.KEY_ZERO 0x5A32 ∧ base.a.keys.bank < 3 ∧ 3 ≤ (withKeys fun k => { k with bank := 3 }).a.keys.bank ∧
    base.a.keys.run = none ∧ base.a.keys.queue = [] ∧ base.a.keys.erase = [] ∧
    (∀ st ∈ [KeyState.empty, .active, .invalid], let s := withKeys fun k => { k with slots := [(255, slotOf st false)], queue := [keyAsk 1 255], run := some (.stage matter) }
      s.a.keys.queue = [keyAsk 1 255] ∧ s.a.keys.run = some (.stage matter) ∧ (s.a.keySlot 255).st = st) ∧
    (let s := withKeys fun k => { k with slots := [(2, slotOf .active true)], queue := [keyAsk 4 2], run := some (.test 77) }
     s.a.keys.run = some (.test 77) ∧ (s.a.keySlot 2).st = .active ∧ (s.a.keySlot 2).staged ≠ none) ∧
    (let s := withKeys fun k => { k with slots := [(2, slotOf .active false)], queue := [keyAsk 4 2], run := some (.test 77) }; (s.a.keySlot 2).staged = none ∧ (s.a.keySlot 3).st ≠ .active) ∧
    (withKeys fun k => { k with queue := [keyAsk 5 9], run := some .commit }).a.keys.run = some .commit ∧
    (withKeys fun k => { k with slots := [(9, slotOf .active true)], queue := [keyAsk 4 9], run := some (.fail 0x15) }).a.keys.run = some (.fail 0x15) ∧
    (withKeys fun k => { k with queue := [keyAsk 4 9], run := some (.fail 0x16) }).a.keys.run = some (.fail 0x16) ∧
    (withKeys fun k => { k with slots := [(9, slotOf .invalid false)], erase := [{ path := some 8, sel := 9, slots := [9, 10] }] }).a.keys.erase =
      [{ path := some 8, sel := 9, slots := [9, 10] }] := by decide +kernel

def cryptoAsk (op slot : Nat) : CryptoReq := { path := 0, access := 0, op := op, slot := slot, pre := false, input := [1, 2, 3] }
def engine (f : CryptoSt → CryptoSt) (len : Nat := 5) (x : KeySlot := slotOf .active false) : State :=
  onA (fun p => { p.pwr 0 Reg.CRYPTO_C_LEN (w32 len) with crypto := f p.crypto }) (withKeys fun k => { k with slots := [(255, x)] })

theorem witness_CryptoOperationsRunInTurn :
    (∀ e ∈ [(1, 0, 0), (2, 255, 0), (3, 255, 1), (4, 255, 1), (5, 255, 0), (6, 255, 0), (7, 0, 0), (8, 0, 0), (9, 255, 0), (10, 0, 0)],
      (engine id).writes .a 0 0x7#4 Reg.CRYPTO_C_OP (w32 (e.1 + 256 * e.2.1 + 65536 * e.2.2)) ∧ (engine id).a.cryptoRefused (cryptoAsk e.1 e.2.1) = false) ∧
    (onA (fun p => p.pwr 0 Reg.CRYPTO_C_RES 1) (engine id)).a.prdF 0 Reg.CRYPTO_C_RES 7 0 = 1 ∧ (engine id).a.prdF 0 Reg.CRYPTO_C_RES 7 0 ≠ 1 ∧
    (engine id 5 { slotOf .active false with tag := 5 }).a.cryptoRefused (cryptoAsk 2 255) = true ∧
    (engine id).a.crypto.run = none ∧ (engine id).a.crypto.queue = [] ∧
    (∀ op ∈ [1, 2, 3, 7], ((engine id).a.cryptoBegin (cryptoAsk op 255) 0).2.isSome = true) ∧ (engine id).a.cryptoBegin (cryptoAsk 6 255) 0 = (0x10, none) ∧
    (engine id).a.cryptoBegin (cryptoAsk 2 254) 0 = (0x19, none) ∧
    (let s := engine fun _ => { queue := [cryptoAsk 1 0], run := some (2, [1, 2, 3, 4, 5]) }; s.a.crypto.queue = [cryptoAsk 1 0] ∧ s.a.crypto.run = some (2, [1, 2, 3, 4, 5])) ∧
    (List.replicate 1024 (0 : Byte)).length ≤ 1024 ∧ (engine id).a.activeKey 255 = some [1] ∧ ((engine id).a.keySlot 255).use.testBit 7 = true ∧
    (engine id).a.keys.entropyFail = false ∧ ((engine id 5 (slotOf .invalid false)).a.keySlot 255).st = .invalid ∧
    (∀ e ∈ [(1, 0, 0), (2, 255, 0), (3, 255, 1)], (engine fun _ => { queue := [cryptoAsk 1 0], run := some (2, []) }).writes .a 0 0x7#4 Reg.CRYPTO_C_OP (w32 (e.1 + 256 * e.2.1 + 65536 * e.2.2)) ∧
      (onA (fun p => p.pwr 0 Reg.CRYPTO_C_RES 1) (engine id)).writes .a 0 0x7#4 Reg.CRYPTO_C_OP (w32 (e.1 + 256 * e.2.1 + 65536 * e.2.2))) ∧
    (engine id 5 { slotOf .active false with tag := 5 }).writes .a 0 0x7#4 Reg.CRYPTO_C_OP (w32 (2 + 256 * 255)) := by decide +kernel

def onBoot (f : BootSt → BootSt) (s : State := base) : State := onA (fun p => p.updBoot f) s
def loading (f : ImgLoad → ImgLoad) (s : State := base) : State := onBoot (fun b => { b with load := some (f { path := 0, program := false, bytes := [1, 2, 3] }) }) s
def firmware (a b : FwState) (running : Nat := 0) (s : State := base) : State :=
  onBoot (fun x => { x with running := running, fwA := { x.fwA with st := a, svn := 3 }, fwB := { x.fwB with st := b, svn := 3 } }) s

theorem witness_ImagesAndFirmwareSlots :
    (∀ act ∈ [1, 2, 4], base.writes .a 0 0x3#4 Reg.BOOT_IMG_CTRL (w32 (act + 256))) ∧ (∀ op ∈ [1, 2, 4], base.writes .a 0 0x1#4 Reg.BOOT_FW_CTRL (w32 op)) ∧
    base.writes .a 0 0xF#4 Reg.BOOT_IMG_DATA 0xFFFFFFFF ∧ base.a.boot.load = none ∧ base.a.boot.peer = none ∧ base.a.fw.st ≠ .trial ∧ base.a.boot.peer = none ∧
    (firmware .confirmed .trial 1).writes .a 0 0x3#4 Reg.BOOT_IMG_CTRL (w32 256) ∧ (loading fun l => { l with verifying := true }).writes .a 0 0x3#4 Reg.BOOT_IMG_CTRL (w32 (1 + 256)) ∧
    (∀ act ∈ [1, 2, 4], (loading id).writes .a 0 0x3#4 Reg.BOOT_IMG_CTRL (w32 (act + 256))) ∧ (loading id).writes .a 0 0xF#4 Reg.BOOT_IMG_DATA 7 ∧
    (loading fun l => { l with path := 8 }).a.boot.load = some { path := 8, program := false, bytes := [1, 2, 3] } ∧
    (loading id).a.boot.load = some { path := 0, program := false, bytes := [1, 2, 3] } ∧
    (loading fun l => { l with verifying := true }).a.boot.load = some { path := 0, program := false, bytes := [1, 2, 3], verifying := true } ∧
    (loading fun l => { l with verifying := true }).a.imgCheck false [1, 2, 3] = 0x11 ∧
    (base.bothRun ∧ (base.plane .b).imgCheck true [1, 2, 3] ≠ 3 ∧ (onBoot fun b => { b with peer := some [1, 2, 3] }).a.boot.peer = some [1, 2, 3]) ∧
    (0 + 10000000000 ≤ (onA (atSec 11)).a.tt base.now ∧ (onA (atSec 1)).a.tt base.now < 0 + 10000000000) ∧
    (∀ op ∈ [1, 2, 4], (firmware .valid .empty).writes .a 0 0x1#4 Reg.BOOT_FW_CTRL (w32 op) ∧ (firmware .confirmed .valid).writes .a 0 0x1#4 Reg.BOOT_FW_CTRL (w32 op) ∧
      (firmware .confirmed .trial 1).writes .a 0 0x1#4 Reg.BOOT_FW_CTRL (w32 op)) ∧ (firmware .valid .empty).a.fw.st ≠ .confirmed ∧ (ownedBy5 Reg.BOOT_PAGE).writes .a 5 0x1#4 Reg.BOOT_FW_CTRL 4 ∧
    (firmware .valid .empty).a.boot.fwA.st = .valid ∧ ((firmware .confirmed .valid).a.boot.fwA.st ≠ .valid ∧ (firmware .confirmed .valid).a.boot.fwB.st = .valid) ∧
    base.a.boot.fwB.st ≠ .valid ∧ ((firmware .confirmed .trial 1).a.fw.st = .trial ∧ ((firmware .confirmed .trial 1).a.boot.fw (1 - 1)).st = .confirmed) ∧ base.a.fw.st = .confirmed ∧
    (∀ ph ∈ [Phase.starting, .recalled], let s := onA (fun p => { p with phase := ph }) (firmware .confirmed .trial 1); s.a.phase = ph ∧ s.a.fw.st = .trial) := by
  decide +kernel

/-- An image of 4 body bytes with the digest that R344 asks for. -/
def imageBytes (type : Byte) : List Byte :=
  [0x4B, 0x56, 0x58, 0x01, type] ++ pad 11 ++ [4] ++ pad 15 ++ sm3 (pad 4) ++ List.replicate 64 7 ++ pad 4

/-- It passes where its signature verifies, which is the curve's matter (Config.sm2Verify). -/
theorem witness_ImagesAndFirmwareSlots_passing :
    let key := bytesOf (Config.fuseKey 0) 64
    Config.sm2Verify key (sm2Digest key ((imageBytes 1).take 64)) (List.replicate 64 7) = true → base.a.imgCheck false (imageBytes 1) = 3 := by
  intro key h
  have digest : sm3 (((imageBytes 1).drop 128).take (ofLe (slice (imageBytes 1) 16 4))) = slice (imageBytes 1) 32 32 := rfl
  have sign : slice (imageBytes 1) 64 64 = List.replicate 64 7 := rfl
  unfold Plane.imgCheck
  simp only []
  rw [if_neg (by decide +kernel), if_neg (by decide +kernel), if_neg (by rw [digest]; exact fun e => e rfl)]
  have code : ofLe (slice (imageBytes 1) 5 1) = 0 := by decide +kernel
  have live : base.a.boot.revoked.getLsbD 0 = false := by decide +kernel
  simp only [code, live, sign, h, key, Bool.not_true, Bool.false_eq_true, if_false, if_true, Bool.not_false, Nat.zero_lt_succ, and_self]
  rfl

/-- A plane with a program key in slot 9. -/
def signed : State := onA (fun p => p.wrF Reg.BOOT_PROG_KEY 7 0 9) (withKeys fun k => { k with slots := [(9, { st := .active, type := 2, use := 0x1FF, key := some (pad 64) })] })

/-- The same for a program, with a standby in step and without one. -/
theorem witness_ImagesAndFirmwareSlots_program : (signed.a.isActive = true ∧ signed.inStep .a = true ∧ (onB offLine signed).inStep .a = false) ∧
    (Config.sm2Verify (pad 64) (sm2Digest (pad 64) ((imageBytes 2).take 64)) (List.replicate 64 7) = true → signed.a.imgCheck true (imageBytes 2) = 3) := by
  refine ⟨by decide +kernel, fun h => ?_⟩
  have digest : sm3 (((imageBytes 2).drop 128).take (ofLe (slice (imageBytes 2) 16 4))) = slice (imageBytes 2) 32 32 := rfl
  have sign : slice (imageBytes 2) 64 64 = List.replicate 64 7 := rfl
  have ready : (signed.a.keySlot (signed.a.rdF Reg.BOOT_PROG_KEY 7 0)).type = 2 ∧ (signed.a.keySlot (signed.a.rdF Reg.BOOT_PROG_KEY 7 0)).use.testBit 1 = true ∧
      (signed.a.keySlot (signed.a.rdF Reg.BOOT_PROG_KEY 7 0)).tag = 0 := by decide +kernel
  have key : signed.a.activeKey (signed.a.rdF Reg.BOOT_PROG_KEY 7 0) = some (pad 64) := by decide +kernel
  unfold Plane.imgCheck
  simp only []
  rw [if_neg (by decide +kernel), if_neg (by decide +kernel), if_neg (by rw [digest]; exact fun e => e rfl)]
  simp only [ready, key, sign, h, Bool.not_true, Bool.false_eq_true, if_false, if_true, and_self, Bool.false_and]

/-! ### Witnesses: Tarn and the recorder (chapters 17 to 19) -/

def tarn (f : TarnSt → TarnSt) (s : State := base) : State := onA (fun p => p.updTarn f) s
def storing : StoreRun := { sseq := 4, todo := [(9, .words [(0, 5)])], count := 1, pf := true }
def window (g : List (Nat × Word) := []) : State := onA fun p => (p.pwr 0 Reg.TARN_WIN_BASE 0x7E00).updPath 0 fun x => { x with hostGroup := g }
/-- Words gathered up to a group's 65,536 bytes: the next one overflows it. -/
def fullGroup : List (Nat × Word) := List.replicate 16384 (0x3F10000, 7)

theorem witness_TarnStoresPasswordsAndHostGroups : base.writes .a 0 0x2#4 Reg.TARN_CTRL 0x100 ∧ base.a.tarn.run = none ∧ (base.a.tarn.next = [] ∧ base.a.tarn.nextAll = false) ∧
    (tarn fun t => { t with next := [5], dirty := [5, 9] }).a.tarn.next ≠ [] ∧ (tarn fun t => { t with nextAll := true, dirty := [5, 9] }).a.tarn.nextAll = true ∧
    ((tarn fun t => { t with run := some storing }).a.tarn.run = some storing ∧ base.a.tarn.waitRun = [] ∧ storing.todo = [(9, .words [(0, 5)])]) ∧
    (let s := tarn fun t => { t with run := some { storing with pf := false }, waitRun := [8] }; s.a.tarn.run = some { storing with pf := false } ∧ s.a.tarn.waitRun = [8]) ∧
    (∀ w ∈ [0, 1, 7, 15], ∀ op ∈ [1, 2, 3], base.writes .a 0 0x3#4 Reg.TARN_PW_CTRL (w32 (w + 256 * op))) ∧
    ((tarn fun t => { t with locked := [12] }).a.tarn.locked = [12] ∧ base.a.passwords = [] ∧ leBytes 4 (base.a.prd 0 Reg.TARN_PWD).toNat ++ leBytes 4 (base.a.prd 0 (Reg.TARN_PWD + 4)).toNat = pad 8) ∧
    (let s := onA (fun p => p.pwr 0 Reg.TARN_PWD 5) (tarn fun t => { t with fails := [(1, 6), (2, 7)] })
     leBytes 4 (s.a.prd 0 Reg.TARN_PWD).toNat ++ leBytes 4 (s.a.prd 0 (Reg.TARN_PWD + 4)).toNat ≠ pad 8 ∧ s.a.passwords = [] ∧
       Tab.get (fun _ => 0) s.a.tarn.fails 1 = 6 ∧ Tab.get (fun _ => 0) s.a.tarn.fails 2 = 7) ∧
    (let s := tarn fun t => t.commit [(passPage, .passwords [(12, [1])])]; s.a.regionOpen 0 6 0 = false ∧ s.a.regionOpen 0 6 1 = true ∧ base.a.regionOpen 0 6 1 = true) ∧
    (∀ k ∈ [0, 511], base.writes .a 0 0xF#4 (Reg.TARN_WIN k) 7) ∧ (tarnRegion (base.a.winOffset 0 511) ≠ 6) ∧
    (tarnRegion (window.a.winOffset 0 511) = 6 ∧ window.a.winOffset 0 511 < 0x4000000 ∧ (window [(0x3F00000, 7)]).a.path 0 = { base.a.path 0 with regs := (window.a.path 0).regs, hostGroup := [(0x3F00000, 7)] }) ∧
    base.writes .a 0 0x1#4 Reg.TARN_H_CTRL 1 ∧ base.writes .a 0 0x1#4 Reg.TARN_H_CTRL 2 ∧
    (ownedBy5 Reg.TARN_PAGE).writes .a 5 0x3#4 Reg.TARN_PW_CTRL (w32 (12 + 256 * 2)) ∧
    (let s := tarn fun t => { t with run := some { storing with pf := false }, waitRun := [16, 9] }; s.a.tarn.waitRun.filter (fun k => k == 16) = [16] ∧ 16 ∉ base.a.tarn.waitRun) ∧
    (∀ st ∈ [false, true], let s := withKeys fun k => { k with slots := [(9, slotOf .active st)], queue := [keyAsk 5 9], run := some .commit }
      s.a.keys.queue = [keyAsk 5 9] ∧ s.a.keys.run = some .commit ∧ (s.a.keySlot 9).staged.isSome = st) := by decide +kernel

/-- The same statement: a group that one more word makes too large. -/
theorem witness_TarnStoresPasswordsAndHostGroups_overflow (data : Word) :
    65536 < 4 * ((fullGroup.filter fun e : Nat × Word => e.1 != 0x3F00000) ++ [(0x3F00000, data)]).length := by
  rw [fullGroup, List.filter_replicate_of_pos (by decide), List.length_append, List.length_replicate]
  show 65536 < 4 * (16384 + 1)
  decide

def written (t : Tag) (sq : Nat) (priv : Bool) : Rec := { type := 0x80, tag := t, sev := 0, cycles := 1, optime := 5, flags := if priv then 1 else 0, seq := sq, body := [1, 2, 3] }
def noteOf (n : Nat) : Rec := { type := 0x80, tag := 0, sev := 0, cycles := 1, optime := 5, flags := 0, seq := 0, body := pad n }
def recorder (f : EvrSt → EvrSt) (s : State := base) : State := onA (fun p => { p with evr := f p.evr }) s
/-- One record of T0 in the founding area; a private one of T5 and one of T0 in the circulating area; what each path has asked for. -/
def reading : State := recorder (fun e => { e with flushed := [(0, 0, written 0 0 false), (2048, 2048, written 5 1 true), (2048, 2048, written 0 2 false)], seqNext := 3 })
  (onA fun p => { p with paths := [(0, { recPending := some 1 }), (1, { recPending := some 2 }), (2, { recPending := some 3, cursor := 1 }),
    (3, { recPending := some (3 + 8 * 5), cursor := 1 }), (4, { recPending := some 4 }), (8, { recPending := some 3, cursor := 3 })] })

theorem witness_RecorderFlushesSealsAndReads : base.writes .a 0 0x2#4 Reg.EVR_CTRL 0x100 ∧ State.reset.a.phase ≠ .ready ∧
    (base.a.phase = .ready ∧ base.a.evr.lost = 0 ∧ base.a.evr.staging + 300 < 196608 ∧ 262144 < (recorder fun e => { e with staged := List.replicate 600 (noteOf 512) }).a.evr.staging ∧ base.a.evr.fullPage = none) ∧
    (let s := recorder fun e => { e with fullPage := some 3, prevChain := List.replicate 32 9, page := 4 }; s.a.evr.fullPage = some 3 ∧ s.a.evr.prevChain.length = 32) ∧
    (∀ op ∈ [1, 2, 3, 4], base.writes .a 0 0x1#4 Reg.EVR_RD_CTRL (w32 op)) ∧ (base.a.path 8).recPending = none ∧
    (let s := onA (fun p => p.updTarn fun t => t.commit [(passPage, .passwords [(0, []), (2, [])])]) reading
     (s.a.path 0).recPending = some 1 ∧ (s.a.path 1).recPending = some 2 ∧ s.a.regionOpen 0 0 0 = false ∧ s.a.regionOpen 1 1 0 = false) ∧
    (reading.a.regionOpen 0 0 0 = true ∧ reading.a.regionOpen 1 1 0 = true ∧ (reading.a.evr.all.find? fun y => reading.a.evr.regionOf y == 0).isSome = true ∧
      (reading.a.evr.all.find? fun y => reading.a.evr.regionOf y == 1).isSome = true ∧ (base.a.evr.all.find? fun y => base.a.evr.regionOf y == 0) = none) ∧
    ((reading.a.path 4).recPending = some 4 ∧ (reading.a.prd 4 Reg.EVR_RD_ARG).toNat = 0 ∧ (reading.a.evr.all.reverse.find? fun y => y.2.seq == 0).isSome = true ∧
      (base.a.evr.all.reverse.find? fun y => y.2.seq == 0) = none) ∧
    ((reading.a.path 8).recPending = some 3 ∧ (∀ y ∈ reading.a.evr.all, y.2.seq ≠ (reading.a.path 8).cursor) ∧ (reading.a.path 8).cursor = reading.a.evr.seqNext) ∧
    (∀ e ∈ [((2 : Nat), (0 : Nat), true), (3, 5, false)], let found := (reading.a.evr.all.dropWhile fun z => z.2.seq != (reading.a.path e.1).cursor).find? fun z => z.2.seen e.2.1
      (reading.a.path e.1).recPending = some (3 + 8 * e.2.1) ∧ reading.a.regionOpen e.1 1 0 = true ∧
      found.any (fun y => reading.a.evr.regionOf y == 1 && (y.2.priv && y.2.tag.toNat != e.2.1) == e.2.2) = true) ∧
    (∀ n ∈ [0, 1, 256, 257, 511], base.writes .a 0 0x7#4 Reg.EVR_APP_CTRL (w32 (n + 512 * 3 + 2048 + 65536))) := by decide +kernel

/-! ### Witnesses: the backup domain (chapter 20) -/

def clock (f : RtcSt → RtcSt) (s : State := base) : State := onA (fun p => p.updRtc fun r => f { r with osf := false, secs := 1000 }) s
/-- Comparator `c` of unit `u` armed; it matches every second. -/
def alarm (u c : Nat) (s : State) : State :=
  onA (fun p => (((p.wrF (Reg.RTC_ALM_STAT u) c c 1).wr (cDate u c) 0x7F000000).wrF (Reg.RTC_ALM_CFG u) 21 16 63).wrF (Reg.RTC_ALM_CFG u) 29 24 63) s
def armedList (s : State) : List (Nat × Nat) := (List.range 14).flatMap fun v => ((List.range 2).filter fun d => s.a.rdF (Reg.RTC_ALM_STAT v) d d == 1).map fun d => (v, d)

theorem witness_ClockAlarmsAndWakeRequests : base.writes .a 0 0x2#4 Reg.RTC_CTRL 0x100 ∧ (base.a.rtc.write = none ∧ base.a.rtc.shift = none) ∧
    (clock fun r => { r with write := some (5000, 7) }).a.rtc.write = some (5000, 7) ∧
    stagedSecs (base.a.rd Reg.RTC_SET_TIME) 0x1F0101 ≠ none ∧ stagedSecs 0 0 = none ∧
    (∀ v ∈ [0, 1, 0x7FFF, 0x8000, 0xFFFF], base.writes .a 0 0x3#4 Reg.RTC_SHIFT (w32 v)) ∧
    (clock fun r => { r with stopped := true }).a.rtc.stopped = true ∧ armedList base = [] ∧ (clock id).a.rtc.secs + 1 ≠ clockRange ∧
    (let s := clock fun r => { r with secs := clockRange - 1 }; s.a.rtc.secs + 1 = clockRange ∧ s.a.rtc.write = none ∧ s.a.rtc.shift = none) ∧
    (let s := clock fun r => { r with shift := some (-5, 7) }; s.a.rtc.shift = some (-5, 7) ∧ s.a.rtc.shifting = false) ∧
    (let s := clock fun r => { r with shift := some (5, 7), shifting := true }; s.a.rtc.shift = some (5, 7) ∧ s.a.rtc.shifting = true) ∧
    (base.a.evr.lost = 0 ∧ base.a.evr.staging + 1200 < 196608 ∧ base.a.phase ≠ .unpowered) ∧ base.a.rtc.crystal = true ∧
    (clock fun r => { r with crystal := false }).a.rtc.crystal = false ∧
    (∀ u ∈ [0, 13], ∀ comps ∈ [0, 1, 2, 3], base.writes .a 0 0x1#4 (Reg.RTC_ALM_CTRL u) (w32 comps) ∧ base.writes .a 0 0x1#4 (Reg.RTC_ALM_CTRL u) (w32 (4 * comps))) ∧
    base.a.rdF (Reg.RTC_PER_CFG 1) 0 0 = 0 ∧
    (onA fun p => p.wr (Reg.RTC_PER_CFG 1) 3).a.rdF (Reg.RTC_PER_CFG 1) 0 0 = 1 ∧ (onA fun p => p.wr (Reg.RTC_PER_CFG 1) 1).a.rdF (Reg.RTC_PER_CFG 1) 1 1 = 0 ∧ (onA fun p => p.wr (Reg.RTC_PER_CFG 1) 3).a.rdF (Reg.RTC_PER_CFG 1) 1 1 = 1 ∧
    (onA fun p => p.updRtc fun r => { r with pwron := some 5 }).a.rtc.pwron = some 5 ∧ (onField fun f => { f with pwron := some 5 }).fs.pwron = some 5 := by decide +kernel

/-- The same statement: a second that matches and one not later than LAST; a step over a matching second; a step to one; a step back; two comparators armed at once, at the last second of the range. -/
theorem witness_ClockAlarmsAndWakeRequests_alarms :
    (∀ u ∈ [0, 13], ∀ c ∈ [0, 1], let s := alarm u c (clock id); armedList s = [(u, c)] ∧ s.a.rtc.stopped = false ∧ s.a.rtc.write = none ∧ s.a.rtc.shift = none ∧
      s.a.almMatch u c 1001 = true ∧ s.a.almAfter u c 1001 = true) ∧
    (let s := onA (fun p => p.wr (cLast 13 1) 1001) (alarm 13 1 (clock id)); s.a.almMatch 13 1 1001 = true ∧ s.a.almAfter 13 1 1001 = false) ∧
    (let s := alarm 13 1 (clock fun r => { r with write := some (1003, 7) }); s.a.rtc.write = some (1003, 7) ∧ (1000 < 1002 ∧ 1002 < 1003 ∧ s.a.almMatch 13 1 1002 = true ∧ s.a.almAfter 13 1 1002 = true)) ∧
    (let s := alarm 0 0 (clock fun r => { r with write := some (1001, 7) }); (∀ k < 1001, 1000 < k → False) ∧ s.a.almMatch 0 0 1001 = true ∧ s.a.almAfter 0 0 1001 = true) ∧
    (let s := onA (fun p => p.wr (cLast 0 0) 900) (alarm 0 0 (clock fun r => { r with write := some (500, 7) })); s.a.rtc.write = some (500, 7) ∧ s.a.almAfter 0 0 500 = false) ∧
    (let s := alarm 13 1 (alarm 0 0 (clock fun r => { r with secs := clockRange - 1 })); armedList s = [(0, 0), (13, 1)] ∧ s.a.rtc.secs + 1 = clockRange ∧ s.a.rtc.stopped = false) := by
  decide +kernel

/-! ### Witnesses: Basins (chapter 21) -/

def basin (b : Nat) (f : BasinSt → BasinSt := id) (s : State := base) : State := onA (fun p => p.setBasin b (f { p.basin b with st := 0, cfg := basinCfg 5 3 0x50 0 })) s
def request (m : Fin 10) (w : Bool) (k : Nat) (e : Fin 3 := 0) : BasinReq := { master := m, word := k, write := w, data := 77, ecc := e }
/-- Two masters write the same word, a third one another, a fourth reads, and masters that R399 does not let through: a bus master and a hardware one. -/
def cycle : List BasinReq := [request 3 true 8192, request 5 true 0, request 6 false 4, request 8 false 0, request 1 true 9]

/-- A cycle of many masters with one served and one colliding, of refused requests alone, of a read with no error, a single and a double one, of none, and of a Basin that is not ON
or is being cleared. Word 8,192 is word 0 of a Basin of 8,192 words. -/
theorem witness_BasinCyclesServeRefuseAndCollide : (∀ l ∈ [cycle, [request 4 false 0 1], []], (l.map BasinReq.master).Nodup) ∧ (base.a.basin 63).st ≠ 0 ∧
    (∀ b ∈ [0, 63], let x := (basin b).a.basin b
      x.st = 0 ∧ x.clearing = false ∧ x.permits 3 true = true ∧ x.permits 5 true = true ∧ x.permits 4 false = true ∧ x.permits 6 false = true ∧ x.permits 8 false = false ∧ x.permits 1 true = false) ∧
    ((basin 63 fun x => { x with clearing := true }).a.basin 63).clearing = true ∧ (∀ r ∈ cycle, r.master.val = 3 ∨ 3 < r.master.val ∨ r.master = 1) ∧
    (basinWords 0 = 8192 ∧ (request 3 true 8192).word % basinWords 0 = (request 5 true 0).word % basinWords 0) ∧
    (request 3 true 1).word % basinWords 0 ≠ (request 5 true 0).word % basinWords 0 ∧ (basinFixed 0 = true ∧ basinFixed 49 = false) ∧ base.a.phase ≠ .unpowered := by decide +kernel

/-- B_CFG with no byte, legal and not, in a plane that holds a role and in one that does not; clearing and waking; a scrub, a region test at a region and at a Basin's last; telemetry with
a cell lost; RUN.NOW; an activity overdue and not. -/
theorem witness_BasinsAreAllocatedClearedAndChecked : base.a.red.role = .active ∧ (onA offLine).a.red.role = .offline ∧ base.writes .a 0 0#4 Reg.MEM_B_CFG 5 ∧
    (∀ data ∈ [0x4000035, 0x1000099F, 0x3453], base.writes .a 0 0xF#4 Reg.MEM_B_CFG (w32 data)) ∧ base.writes .a 0 0x8#4 Reg.MEM_B_CFG 0x4000035 ∧
    (let s := onA (fun p => (p.pwr 0 Reg.MEM_SEL 25).updRed fun r => { r with role := .offline }); s.writes .a 0 0xF#4 Reg.MEM_B_CFG 0x3453) ∧
    (basinFixed 0 = true ∧ basinFixed 25 = false ∧ (onA fun p => p.pwr 0 Reg.MEM_SEL 25).a.prdF 0 Reg.MEM_SEL 5 0 = 25) ∧
    ((basin 25).a.basin 25).clearing = false ∧ ((basin 25).a.basin 25).st ≠ 3 ∧ ((basin 25 fun x => { x with clearing := true }).a.basin 25).clearing = true ∧
    ((basin 25 fun x => { x with st := 3 }).a.basin 25).st = 3 ∧
    (let s := onA (fun p => p.wr Reg.BKG_CFG 63) (basin 0); (s.a.basin 0).st = 0 ∧ s.a.bkgOn 0 = true ∧ s.a.bkgOn 1 = true ∧ s.a.bkgOn 5 = true) ∧ (onA fun p => p.wr Reg.BKG_CFG 0).a.bkgOn 5 = false ∧
    (onA fun p => p.wr Reg.BKG_CFG 0).a.bkgOn 1 = false ∧ ([(8191, false), (0, true)].countP fun e : Nat × Bool => e.2) = 1 ∧
    (let s := onA fun p => (p.wr Reg.BKG_CFG 63).wr Reg.BKG_TEST_POS (0 + 65536 * 1023); s.a.rdF Reg.BKG_TEST_POS 29 16 + 1 = basinWords (s.a.rdF Reg.BKG_TEST_POS 5 0) / 8) ∧
    base.a.rdF Reg.BKG_TEST_POS 29 16 + 1 ≠ basinWords (base.a.rdF Reg.BKG_TEST_POS 5 0) / 8 ∧ ((onA fun p => p.wr Reg.BKG_CFG 63).plane (onA fun p => p.wr Reg.BKG_CFG 63).lead).bkgOn 5 = true ∧
    (onField fun f => { f with power := { f.power with cells := 0xF } }).fs.power.cells &&& ~~~(0x7#4) ≠ 0 ∧
    (∀ acts ∈ [0, 1, 63], base.writes .a 0 0x1#4 Reg.BKG_RUN (w32 acts)) ∧ base.a.overdue base.fs 0 base.now = false ∧
    (let s := onA (fun p => atSec 10000 (p.wr Reg.BKG_CFG 63)) (basin 25); s.a.overdue s.fs 0 s.now = true ∧ s.a.overdue s.fs 5 s.now = true ∧ s.a.rdF Reg.BKG_DEFER 5 5 = 0) := by decide +kernel

theorem witness_MemoriesKeepTheirCanonicalForm : ∃ t, exec (.basinAccess .a 63 [request 3 true 0]) (basin 63) = .next t ∧ Memory.wf (basin 63).a = true :=
  ⟨_, rfl, by decide +kernel⟩

/-! ### Witnesses: starts and faults (chapters 22 and 23) -/

def phases (a b : Phase) : State := both (fun p => p) { base with a := { base.a with phase := a }, b := { base.b with phase := b } }
def restarting (step at_ : Nat) (s : State := base) : State := onField (fun f => { f with restart := some { at_ := at_, cold := true, tag := 0, step := step, shedTt := 0 } }) s
def held : State := both fun p => p.wrF Reg.FAULT_STAT 12 12 1
def returned : State := onField (fun f => { f with power := { f.power with shed := true, okTt := some 5 } }) (both (atSec 100) held)

theorem witness_StartsAndRestartsRunInOrder : (phases .unpowered .unpowered).a.phase = .unpowered ∧ (phases .unpowered .unpowered).b.phase = .unpowered ∧ base.a.phase ≠ .unpowered ∧
    base.b.phase ≠ .unpowered ∧ (phases .starting .ready).a.phase = .starting ∧ (phases .recalled .ready).a.phase = .recalled ∧ ((phases .starting .ready).a.tarn.recall.2 = []) ∧
    (∀ n ∈ [1, 2, 3], base.writes .a 0 0x3#4 Reg.FAULT_RESTART (w32 (0xA500 + n))) ∧ base.writes .b 0 0x3#4 Reg.FAULT_RESTART 0xA501 ∧
    (base.b.isActive = false ∧ base.b.start.restart = none) ∧ (onB fun p => { p with start := { p.start with restart := some (.planeCmd, 7) } }).b.start.restart = some (.planeCmd, 7) ∧ (base.a.isActive = true ∧ base.inStep .a = true ∧ base.a.red.drill = none) ∧ (onB offLine).inStep .a = false ∧
    (onA (onRed fun r => { r with drill := some 40960 })).a.red.drill ≠ none ∧ base.fs.restart = none ∧ (restarting 0 8192).fs.restart ≠ none := by decide +kernel

/-- The same statement: the module restart's moments, and the supplies. -/
theorem witness_StartsAndRestartsRunInOrder_moments :
    (base.now < 9000 ∧ 8192 ≤ base.now ∧ base.now % 2048 = 0 ∧ base.fs.power.slw = false ∧ base.now < 8000 + 2048 ∧ 2048 + 2048 ≤ base.now) ∧
    ((restarting 2 2048 held).a.pfHold = true ∧ (restarting 2 2048 held).b.pfHold = true) ∧ (base.a.phase = .ready ∧ base.a.pfHold = false ∧ (restarting 2 2048).ttNow < 0 + 200000000) ∧
    (∀ n ∈ [0, 1, 2, 3], ((restarting n 9000).fs.restart.any fun r => r.step == n && decide (base.now < r.at_)) = true) ∧ (onField fun f => { f with power := { f.power with slw := true } }).fs.power.slw = true ∧ 0 + 200000000 ≤ (restarting 2 2048 (both (atSec 100))).ttNow ∧
    (phases .unpowered .ready).a.live = false ∧ base.a.live = true ∧ base.a.start.pfAt = none ∧
    (onA fun p => { p with start := { p.start with pfAt := some 8000 } }).a.start.pfAt = some 8000 ∧
    (returned.fs.power.okTt = some 5 ∧ returned.fs.power.shed = true ∧ returned.fs.power.slw = false ∧ 5 + 1000000000 ≤ returned.ttNow ∧ returned.bothRun ∧
      returned.a.pfHold = true ∧ returned.b.pfHold = true) ∧ base.fs.power.shed = false ∧
    (onField (fun f => { f with power := { f.power with shed := true, okTt := some 5 } }) base).ttNow < 5 + 1000000000 := by decide +kernel

def faulty (f : StartSt → StartSt) (s : State := onA offLine) : State := onA (fun p => atSec 1000 { p.wr Reg.FAULT_PLANE_FLT 4 with start := f { p.start with fltTt := some 0 } }) s

theorem witness_FaultFlagsAndTheRelay : base.a.phase = .ready ∧ State.reset.a.phase ≠ .ready ∧ base.b.red.role = .standby ∧ (base.a.isActive = true ∧ base.inStep .a = true) ∧
    (onB offLine).inStep .a = false ∧ base.a.start.fltTt = none ∧
    (let s := onA (fun p => p.updRtc fun r => { r with secs := 5000 }) (faulty fun x => { x with autos := [4000, 4500, 4900] }); s.a.recentAutos.length = 3) ∧
    (let s := onA (fun p => p.updRtc fun r => { r with secs := 5000 }) (faulty fun x => { x with autos := [1, 4500, 4900] })
     s.a.start.fltTt = some 0 ∧ 0 + 10000000000 ≤ s.a.tt s.now ∧ s.a.live = true ∧ s.a.isActive = false ∧ ¬ s.a.healthy ∧ s.a.rdF Reg.FAULT_RESTART 16 16 = 1 ∧ s.a.recentAutos.length < 3 ∧
       s.a.start.restart = none) ∧
    (faulty (fun x => { x with restart := some (.planeCmd, 7) })).a.start.restart ≠ none ∧ (base.fs.power.intake ≤ 50 ∧ 50 < (onField fun f => { f with power := { f.power with intake := 51 } }).fs.power.intake) ∧
    base.writes .a 0 0x2#4 Reg.FAULT_RELAY 0x100 ∧ base.fs.au.holder = some .a ∧ (onField fun f => { f with relay := true }).fs.relay = true ∧
    (base.a.start.relayTest.filter fun e => decide (base.a.tt base.now < e)) = none ∧ base.a.healthy ∧ base.a.rd Reg.FAULT_FIELD_FLT = 0 ∧ base.a.rd Reg.FAULT_WARN = 0 ∧
    base.fs.stopped = false ∧ base.fs.power.shed = false := by decide +kernel
end Sys2Proof.Tests
end

section
/-!
SUPPORT. Event summary and interrupt (R47, R65): the bits of a packed word of flags, and through them SYS.EVT_SUM_k and IRQ#.
-/
namespace Sys2Proof.Machine

/-- Laying the flags of `f` below `n` side by side gives a number under `2 ^ n` that has them as its bits. -/
theorem foldl_flags_testBit (f : Nat → Bool) (n : Nat) :
    let v := (List.range n).foldl (fun a i => a + b1 (f i) % 2 ^ 1 * 2 ^ (1 * i)) 0
    v < 2 ^ n ∧ ∀ j < n, v.testBit j = f j := by
  induction n with
  | zero => simp
  | succ n ih =>
    obtain ⟨hlt, hbit⟩ := ih
    simp only [List.range_succ, List.foldl_append, List.foldl_cons, List.foldl_nil]
    generalize (List.range n).foldl _ 0 = v at hlt hbit ⊢
    have hadd : v + b1 (f n) % 2 ^ 1 * 2 ^ (1 * n) = 2 ^ n * (f n).toNat + v := by
      rw [Nat.pow_one, Nat.one_mul, Nat.mod_eq_of_lt (Bool.toNat_lt _), Nat.mul_comm, Nat.add_comm]
    rw [hadd]
    constructor
    · rw [Nat.pow_succ]
      cases f n
      · rw [Bool.toNat_false]; omega
      · rw [Bool.toNat_true]; omega
    · intro j hj
      rw [Nat.testBit_two_pow_mul_add _ hlt]
      rcases Nat.lt_succ_iff_lt_or_eq.mp hj with h | rfl
      · rw [if_pos h, hbit j h]
      · cases f j <;> simp

/-- Bit `n` of a word packed from flags is flag `n`. -/
theorem bit_packFields_flags (f : Nat → Bool) (n : Nat) (h : n < 32) : bit (packFields 1 32 fun i => b1 (f i)) n = f n := by
  obtain ⟨hlt, hbit⟩ := foldl_flags_testBit f 32
  rw [bit, packFields, BitVec.getLsbD_ofNat, hbit n h, decide_eq_true h, Bool.true_and]

/-- A word other than 0 has a bit set. -/
theorem word_ne_zero_iff (w : Word) : w ≠ 0 ↔ ∃ n < 32, bit w n = true := by
  constructor
  · intro hw
    refine Classical.byContradiction fun hnone => hw (BitVec.eq_of_getLsbD_eq fun n hn => ?_)
    have hbit : bit w n = false := Bool.eq_false_iff.mpr fun hb => hnone ⟨n, hn, hb⟩
    exact hbit.trans BitVec.getLsbD_zero.symm
  · rintro ⟨n, -, hn⟩ rfl
    exact Bool.false_ne_true (BitVec.getLsbD_zero.symm.trans hn)

/-- Bit `n` of EVT_SUM_k shows page 32 k + n (R47). -/
theorem Plane.bit_evtSumAll (p : Plane) (k n : Nat) (h : n < 32) : bit (p.evtSumAll k) n = p.pageEvent (32 * k + n) :=
  bit_packFields_flags (fun i => p.pageEvent (32 * k + i)) n h

/-- IRQ# of a running plane (R65). -/
theorem Plane.irq_iff (p : Plane) (h : p.phase = .ready) :
    p.irq = true ↔ bit (p.rd Reg.SYS_CTRL) 8 = true ∧ ∃ k < 3, p.evtSumAll k ≠ 0 := by
  simp [Plane.irq, Plane.running, h]

/-- Settles O13: some summary word differs from 0 exactly while one of its bits is 1. -/
theorem irqFollowsTheSummaryBits : Obligations.IrqFollowsTheSummaryBits := by
  unfold Obligations.IrqFollowsTheSummaryBits
  intro p hp
  refine ⟨?_, fun k _ n hn => p.bit_evtSumAll k n hn⟩
  simp only [p.irq_iff hp, word_ne_zero_iff]

end Sys2Proof.Machine
end

section
/-!
SUPPORT. Accesses that reach no register (R40): unmapped pages, and offsets of a mapped page that no chapter lists. A word access (R39)
meets R40; the statement O6 also speaks of byte addresses inside a word, where a write to a table entry is buffered.
-/
namespace Sys2Proof.Machine

/-- No page above FAULT has a common header (R41). -/
theorem blockOf_eq_none {page : Nat} (h : 0x50 < page) : blockOf page = none := by
  unfold blockOf
  repeat rw [if_neg (by omega)]

theorem page_le_of_blockOf {page : Nat} (h : (blockOf page).isSome = true) : page ≤ 0x50 := by
  refine Nat.le_of_not_lt fun hp => ?_
  rw [blockOf_eq_none hp] at h
  exact Bool.false_ne_true h

/-- An offset of a mapped page that no chapter lists: in a block page beside ID (R42), or behind the objects of a message memory. -/
def unlistedAt (a : Nat) : Prop :=
  ((blockOf (a / 0x1000)).isSome ∧ regAt a = none ∧ a % 0x1000 ≠ 0) ∨
    (0x140 ≤ a / 0x1000 ∧ isWindow (a / 0x1000) = true ∧ 10240 ≤ (a - 0x140000) % 0x3000)

/-- An unlisted offset lies on a mapped page other than 0x1F0, and has no register. -/
theorem unlistedAt.mapped {a : Nat} (h : unlistedAt a) : mapped (a / 0x1000) = true ∧ a / 0x1000 ≠ 0x1F0 ∧ regAt a = none := by
  rcases h with ⟨hb, hr, -⟩ | ⟨-, hw, -⟩
  · have := page_le_of_blockOf hb
    exact ⟨by simp [Machine.mapped, hb], by omega, hr⟩
  · have hp : 0x100 ≤ a / 0x1000 ∧ a / 0x1000 ≤ 0x157 := by simpa [isWindow] using hw
    exact ⟨by simp [Machine.mapped, hw], by omega, by simp [regAt, blockOf_eq_none (show 0x50 < a / 0x1000 by omega)]⟩

/-- An unlisted offset reads 0. -/
theorem State.view_unlisted (s : State) (i : PlaneId) (path tag a : Nat) (h : unlistedAt a) : s.view i path tag a = 0 := by
  obtain ⟨-, halias, hr⟩ := h.mapped
  rcases h with ⟨hb, -, ho⟩ | ⟨hp, hw, ho⟩
  · have hnw : isWindow (a / 0x1000) = false := by
      have := page_le_of_blockOf hb
      have hlow : ¬ 0x100 ≤ a / 0x1000 := by omega
      simp [isWindow, hlow]
    simp [State.view, halias, hnw, hr, ho]
  · have ha : ¬ a < 0x140000 := by omega
    simp [State.view, halias, hw, ha, Nat.not_lt.mpr ho]

/-- Every word of a loop record and of a section is a listed register (R238). -/
theorem regsLOOP_lists_entries : ∀ j < 6, (rowIn regsLOOP (0x44 + 4 * j)).isSome = true ∧ (rowIn regsLOOP (0x74 + 4 * j)).isSome = true := by
  decide +kernel

/-- Every word of a wake filter's entry is a listed register (R280). -/
theorem regsWAKE_lists_entries : ∀ k < 32, ∀ j < 10, (rowIn regsWAKE (0x100 + 0x40 * k + 4 * j)).isSome = true := by decide +kernel

/-- The register rows that are searched on the LOOP and WAKE pages. -/
theorem regAt_loopPage {a : Nat} (h : a / 0x1000 = 0x29) : regAt a = rowIn regsLOOP (a % 0x1000) := by simp [regAt, h, blockOf]

theorem regAt_wakePage {a : Nat} (h : a / 0x1000 = 0x35) : regAt a = rowIn regsWAKE (a % 0x1000) := by simp [regAt, h, blockOf]

/-- No table entry takes a write to an unlisted word of a block page. -/
theorem Plane.entryPlace_unlisted (p : Plane) (path a : Nat) (hw : a % 4 = 0) (hb : (blockOf (a / 0x1000)).isSome = true)
    (hr : regAt a = none) : p.entryPlace path a = none := by
  have hp := page_le_of_blockOf hb
  have hrow : ∀ rows o, regAt a = rowIn rows (a % 0x1000) → a % 0x1000 = o → (rowIn rows o).isSome ≠ true := by
    rintro rows o h rfl
    simp [← h, hr]
  unfold Plane.entryPlace
  rw [if_neg (by omega), if_neg (by omega), if_neg, if_neg, if_neg]
  · rintro ⟨hpage, h1, h2, h3⟩
    exact hrow _ (0x100 + 0x40 * ((a % 0x1000 - 0x100) / 0x40) + 4 * ((a % 0x1000 - 0x100) % 0x40 / 4)) (regAt_wakePage hpage) (by omega)
      (regsWAKE_lists_entries _ (by omega) _ (by omega))
  · rintro ⟨hpage, h1, h2⟩
    exact hrow _ (0x74 + 4 * ((a % 0x1000 - 0x74) / 4)) (regAt_loopPage hpage) (by omega) (regsLOOP_lists_entries _ (by omega)).2
  · rintro ⟨hpage, h1, h2⟩
    exact hrow _ (0x44 + 4 * ((a % 0x1000 - 0x44) / 4)) (regAt_loopPage hpage) (by omega) (regsLOOP_lists_entries _ (by omega)).1

section Ready
variable (s : State) (i : PlaneId) (path : Nat) (tag : Tag) (group : Bool) (be : BitVec 4) (a : Nat) (data : Word)

/-- A permitted read of an unmapped page. -/
theorem State.readWord_unmapped (h : (s.plane i).phase = .ready) (hf : s.forbids i path tag false 0xFFFFFFFF#32 0 a = 0)
    (hm : mapped (a / 0x1000) = false) : s.readWord i path tag a = { st := s.upd i Plane.unmapped, word := 0, ok := true } := by
  simp only [State.readWord, Plane.answers, h, hf, hm]
  simp

/-- A permitted write to an unmapped page. -/
theorem State.writeWord_unmapped (h : (s.plane i).phase = .ready) (hf : s.forbids i path tag true (beMask be) data a = 0)
    (hbe : be ≠ 0) (hm : mapped (a / 0x1000) = false) :
    s.writeWord i path tag group be a data = { st := s.upd i Plane.unmapped, word := 0, ok := true } := by
  have halias : a / 0x1000 ≠ 0x1F0 := by rintro e; simp [mapped, e] at hm
  simp only [State.writeWord, Plane.answers, h, hf, hbe, halias, hm]
  simp

/-- A permitted read of an unlisted offset. -/
theorem State.readWord_unlisted (h : (s.plane i).phase = .ready) (hf : s.forbids i path tag false 0xFFFFFFFF#32 0 a = 0)
    (hu : unlistedAt a) : s.readWord i path tag a = { st := s, word := 0, ok := true } := by
  obtain ⟨hm, halias, hr⟩ := hu.mapped
  simp only [State.readWord, Plane.answers, h, hf, hm, halias, hr, s.view_unlisted i path tag.toNat a hu]
  simp

/-- A permitted write to an unlisted word. -/
theorem State.writeWord_unlisted (h : (s.plane i).phase = .ready) (hf : s.forbids i path tag true (beMask be) data a = 0)
    (hu : unlistedAt a) (hw : a % 4 = 0) : s.writeWord i path tag group be a data = { st := s, word := 0, ok := true } := by
  obtain ⟨hm, halias, hr⟩ := hu.mapped
  simp only [State.writeWord, Plane.answers, h, hf, hm, halias, hr]
  rcases hu with ⟨hb, -, -⟩ | ⟨hp, hwin, ho⟩
  · have hnw : ¬ (0x140 ≤ a / 0x1000 ∧ isWindow (a / 0x1000) = true) := by have := page_le_of_blockOf hb; omega
    simp [hnw, (s.plane i).entryPlace_unlisted path a hw hb hr]
  · simp [hp, hwin, Nat.not_lt.mpr ho]

end Ready

/-- The reset state with plane A READY. -/
def readyAtReset : State := { State.reset with a := { State.reset.a with phase := .ready } }

/-- Byte 1 of LOOP.LCFG_0, an address inside a listed word. -/
def insideLcfg : Nat := 0x29045

/-- No register is listed at an address inside a word, here in a block page. -/
theorem insideLcfg_unlisted : unlistedAt insideLcfg := by
  refine Or.inl ⟨?_, ?_, ?_⟩ <;> decide +kernel

theorem readyAtReset_permits_insideLcfg : readyAtReset.forbids .a 0 0 true (beMask 0xF#4) 0 insideLcfg = 0 := by decide +kernel

/-- The write is taken as one of word 0 of the selected loop record's entry: a buffer of it opens on the HRP, where none was before. -/
theorem bufs_writeWord_insideLcfg :
    (((readyAtReset.writeWord .a 0 0 false 0xF#4 insideLcfg 0).st.plane .a).path 0).bufs ≠ ((readyAtReset.plane .a).path 0).bufs := by
  decide +kernel

/-- Refutes O6: the statement takes any byte address, and a permitted T0 write to 0x29045, inside LOOP.LCFG_0, finds no listed register but
is buffered as word 0 of the loop record that L_SEL selects, so the state changes. Every access moves one aligned word (R39), and on aligned
words the rule holds: `State.readWord_unmapped`, `State.writeWord_unmapped`, `State.readWord_unlisted`, `State.writeWord_unlisted`. -/
theorem not_unmappedAccessesCountAndUnlistedOffsetsDoNot : ¬ Obligations.UnmappedAccessesCountAndUnlistedOffsetsDoNot := by
  unfold Obligations.UnmappedAccessesCountAndUnlistedOffsetsDoNot
  intro h
  obtain ⟨-, hunlisted⟩ := h readyAtReset .a 0 0 false 0xF#4 insideLcfg 0 rfl
  obtain ⟨-, hwrite⟩ := hunlisted insideLcfg_unlisted
  exact bufs_writeWord_insideLcfg (by rw [hwrite readyAtReset_permits_insideLcfg])

end Sys2Proof.Machine
end
